-- ==== Sys2Proof/Word.lean ====
section
/-! DEFINITION. The word types of the block (spec/00_scope.md R5, R12): bytes, the 16-bit words of PC, I and
the opcode, and the register and key indexes, which are names 0 to 15 and never computed with as words. -/

namespace Sys2Proof

/-- 8 bits: a RAM cell, a data register, a timer (R5). -/
abbrev Byte := BitVec 8

/-- 16 bits: PC, I, a call-stack entry, an opcode (R5). -/
abbrev Word := BitVec 16

/-- The name of a data register, V0 to VF (R18). -/
abbrev Reg := Fin 16

/-- The index of a key of the hex keypad, 0 to F (R31). -/
abbrev KeyIndex := Fin 16

/-- VF, the data register that is also the flag register (R19). -/
abbrev vf : Reg := 15

end Sys2Proof
end

