-- ==== Sys2Proof/Syntax.lean ====
section
/-! DEFINITION. The instructions: one constructor for each of the 35 rows of spec/30_encoding.md R70, in that
order. `x` and `y` name data registers, `n`, `nn` and `nnn` are the immediates of R61 and R62. -/

namespace Sys2Proof

inductive Instr where
  /-- 00E0 CLS (R77) -/
  | cls
  /-- 00EE RET (R78) -/
  | ret
  /-- 0NNN SYS NNN, NNN ∉ {0E0, 0EE} (R79) -/
  | sys (nnn : BitVec 12)
  /-- 1NNN JP NNN (R80) -/
  | jp (nnn : BitVec 12)
  /-- 2NNN CALL NNN (R81) -/
  | call (nnn : BitVec 12)
  /-- 3XNN SE VX, NN (R83) -/
  | seVxNn (x : Reg) (nn : Byte)
  /-- 4XNN SNE VX, NN (R84) -/
  | sneVxNn (x : Reg) (nn : Byte)
  /-- 5XY0 SE VX, VY (R85) -/
  | seVxVy (x y : Reg)
  /-- 6XNN LD VX, NN (R89) -/
  | ldVxNn (x : Reg) (nn : Byte)
  /-- 7XNN ADD VX, NN (R90) -/
  | addVxNn (x : Reg) (nn : Byte)
  /-- 8XY0 LD VX, VY (R92) -/
  | ldVxVy (x y : Reg)
  /-- 8XY1 OR VX, VY (R93) -/
  | orVxVy (x y : Reg)
  /-- 8XY2 AND VX, VY (R94) -/
  | andVxVy (x y : Reg)
  /-- 8XY3 XOR VX, VY (R95) -/
  | xorVxVy (x y : Reg)
  /-- 8XY4 ADD VX, VY (R96) -/
  | addVxVy (x y : Reg)
  /-- 8XY5 SUB VX, VY (R97) -/
  | subVxVy (x y : Reg)
  /-- 8XY6 SHR VX, VY (R98) -/
  | shrVxVy (x y : Reg)
  /-- 8XY7 SUBN VX, VY (R99) -/
  | subnVxVy (x y : Reg)
  /-- 8XYE SHL VX, VY (R100) -/
  | shlVxVy (x y : Reg)
  /-- 9XY0 SNE VX, VY (R86) -/
  | sneVxVy (x y : Reg)
  /-- ANNN LD I, NNN (R91) -/
  | ldINnn (nnn : BitVec 12)
  /-- BNNN JP V0, NNN (R82) -/
  | jpV0Nnn (nnn : BitVec 12)
  /-- CXNN RND VX, NN (R101) -/
  | rndVxNn (x : Reg) (nn : Byte)
  /-- DXYN DRW VX, VY, N (R103) -/
  | drwVxVyN (x y : Reg) (n : BitVec 4)
  /-- EX9E SKP VX (R87) -/
  | skpVx (x : Reg)
  /-- EXA1 SKNP VX (R88) -/
  | sknpVx (x : Reg)
  /-- FX07 LD VX, DT (R108) -/
  | ldVxDt (x : Reg)
  /-- FX0A LD VX, K (R112) -/
  | ldVxK (x : Reg)
  /-- FX15 LD DT, VX (R109) -/
  | ldDtVx (x : Reg)
  /-- FX18 LD ST, VX (R110) -/
  | ldStVx (x : Reg)
  /-- FX1E ADD I, VX (R111) -/
  | addIVx (x : Reg)
  /-- FX29 LD F, VX (R113) -/
  | ldFVx (x : Reg)
  /-- FX33 LD B, VX (R114) -/
  | ldBVx (x : Reg)
  /-- FX55 LD [I], VX (R115) -/
  | ldMemVx (x : Reg)
  /-- FX65 LD VX, [I] (R116) -/
  | ldVxMem (x : Reg)
  deriving DecidableEq, Repr

end Sys2Proof
end

