-- ==== Sys2Proof/WellFormed.lean ====
section
/-! DEFINITION. Which terms of `Instr` are instructions. Every field's range is in its type, so one check is left:
0NNN stands for no word that 00E0 or 00EE already takes (spec/30_encoding.md R65, R70 row 3). -/

namespace Sys2Proof

/-- The instruction is one that some word encodes (R70). -/
def Instr.wf : Instr → Bool
  | .sys nnn => nnn != 0x0E0#12 && nnn != 0x0EE#12
  | _ => true

end Sys2Proof
end

