-- ==== Sys2Proof/Decode.lean ====
section
/-! DEFINITION. The decoder of spec/30_encoding.md (R60 to R74): total on every 16-bit word and on every byte list,
an unassigned word rejected under the name of its class (R73). After it the encoder, written from the formats of
R61 and the patterns of R70. -/

namespace Sys2Proof

/-- Why bytes are no instruction: the four classes of unassigned words of R73 (5XYn and 9XYn apart), and a byte
list that holds less than one word. -/
inductive Reject where
  /-- 5XYn with n ≠ 0 -/
  | unassigned5
  /-- 8XYn with n ∈ {8, 9, A, B, C, D, F} -/
  | unassigned8
  /-- 9XYn with n ≠ 0 -/
  | unassigned9
  /-- EXnn with nn ∉ {9E, A1} -/
  | unassignedE
  /-- FXnn with nn not among the nine of R69 -/
  | unassignedF
  /-- fewer than two bytes -/
  | truncated
  deriving DecidableEq, Repr

/-! ### The fields of the word (R61) -/

/-- bits 15:12, the dispatch key -/
def fieldOp (w : Word) : BitVec 4 := w.extractLsb' 12 4

/-- X, bits 11:8 -/
def fieldX (w : Word) : Reg := (w.extractLsb' 8 4).toFin

/-- Y, bits 7:4 -/
def fieldY (w : Word) : Reg := (w.extractLsb' 4 4).toFin

/-- N, bits 3:0 -/
def fieldN (w : Word) : BitVec 4 := w.extractLsb' 0 4

/-- NN, bits 7:0 -/
def fieldNN (w : Word) : Byte := w.extractLsb' 0 8

/-- NNN, bits 11:0 -/
def fieldNNN (w : Word) : BitVec 12 := w.extractLsb' 0 12

/-! ### The secondary switches -/

/-- Group 0, on NNN (R65). -/
def decode0 (w : Word) : Except Reject Instr :=
  match fieldNNN w with
  | 0x0E0#12 => .ok .cls
  | 0x0EE#12 => .ok .ret
  | nnn => .ok (.sys nnn)

/-- Group 5, on N (R67). -/
def decode5 (w : Word) : Except Reject Instr :=
  match fieldN w with
  | 0x0#4 => .ok (.seVxVy (fieldX w) (fieldY w))
  | _ => .error .unassigned5

/-- Group 8, on N (R66). -/
def decode8 (w : Word) : Except Reject Instr :=
  match fieldN w with
  | 0x0#4 => .ok (.ldVxVy (fieldX w) (fieldY w))
  | 0x1#4 => .ok (.orVxVy (fieldX w) (fieldY w))
  | 0x2#4 => .ok (.andVxVy (fieldX w) (fieldY w))
  | 0x3#4 => .ok (.xorVxVy (fieldX w) (fieldY w))
  | 0x4#4 => .ok (.addVxVy (fieldX w) (fieldY w))
  | 0x5#4 => .ok (.subVxVy (fieldX w) (fieldY w))
  | 0x6#4 => .ok (.shrVxVy (fieldX w) (fieldY w))
  | 0x7#4 => .ok (.subnVxVy (fieldX w) (fieldY w))
  | 0xE#4 => .ok (.shlVxVy (fieldX w) (fieldY w))
  | _ => .error .unassigned8

/-- Group 9, on N (R67). -/
def decode9 (w : Word) : Except Reject Instr :=
  match fieldN w with
  | 0x0#4 => .ok (.sneVxVy (fieldX w) (fieldY w))
  | _ => .error .unassigned9

/-- Group E, on NN (R68). -/
def decodeE (w : Word) : Except Reject Instr :=
  match fieldNN w with
  | 0x9E#8 => .ok (.skpVx (fieldX w))
  | 0xA1#8 => .ok (.sknpVx (fieldX w))
  | _ => .error .unassignedE

/-- Group F, on NN (R69). -/
def decodeF (w : Word) : Except Reject Instr :=
  match fieldNN w with
  | 0x07#8 => .ok (.ldVxDt (fieldX w))
  | 0x0A#8 => .ok (.ldVxK (fieldX w))
  | 0x15#8 => .ok (.ldDtVx (fieldX w))
  | 0x18#8 => .ok (.ldStVx (fieldX w))
  | 0x1E#8 => .ok (.addIVx (fieldX w))
  | 0x29#8 => .ok (.ldFVx (fieldX w))
  | 0x33#8 => .ok (.ldBVx (fieldX w))
  | 0x55#8 => .ok (.ldMemVx (fieldX w))
  | 0x65#8 => .ok (.ldVxMem (fieldX w))
  | _ => .error .unassignedF

/-- Primary dispatch, a 16-way table on the high nibble; the last line is nibble F (R64). -/
def decode (w : Word) : Except Reject Instr :=
  match fieldOp w with
  | 0x0#4 => decode0 w
  | 0x1#4 => .ok (.jp (fieldNNN w))
  | 0x2#4 => .ok (.call (fieldNNN w))
  | 0x3#4 => .ok (.seVxNn (fieldX w) (fieldNN w))
  | 0x4#4 => .ok (.sneVxNn (fieldX w) (fieldNN w))
  | 0x5#4 => decode5 w
  | 0x6#4 => .ok (.ldVxNn (fieldX w) (fieldNN w))
  | 0x7#4 => .ok (.addVxNn (fieldX w) (fieldNN w))
  | 0x8#4 => decode8 w
  | 0x9#4 => decode9 w
  | 0xA#4 => .ok (.ldINnn (fieldNNN w))
  | 0xB#4 => .ok (.jpV0Nnn (fieldNNN w))
  | 0xC#4 => .ok (.rndVxNn (fieldX w) (fieldNN w))
  | 0xD#4 => .ok (.drwVxVyN (fieldX w) (fieldY w) (fieldN w))
  | 0xE#4 => decodeE w
  | _ => decodeF w

/-! ### Words as bytes (R47: big-endian, the high byte first) -/

/-- The word of two fetched bytes. -/
def wordOfBytes (hi lo : Byte) : Word := hi ++ lo

/-- The byte at the lower address. -/
def highByte (w : Word) : Byte := w.extractLsb' 8 8

/-- The byte at the higher address. -/
def lowByte (w : Word) : Byte := w.extractLsb' 0 8

/-- The instruction that a byte list begins with, and the bytes after it (R60: its length is always 2). -/
def decodeBytes : List Byte → Except Reject (Instr × List Byte)
  | hi :: lo :: rest =>
    match decode (wordOfBytes hi lo) with
    | .ok i => .ok (i, rest)
    | .error r => .error r
  | _ => .error .truncated

/-- The instruction the decoder reads from the word `w` of an opcode-table row of `nbits` bits. The word is laid out
as the hardware stores it, high byte first (R47), and given to `decodeBytes`. -/
def decodeTableWord (nbits w : Nat) : Option Instr :=
  let word : Word := BitVec.ofNat 16 (w % 2 ^ nbits)
  match decodeBytes [highByte word, lowByte word] with
  | .ok (i, _) => some i
  | .error _ => none

/-! ### The encoder -/

/-- A register name as a 4-bit field (R61). -/
def nibble (x : Reg) : BitVec 4 := BitVec.ofFin x

/-- Format O_NNN (R61): `oooo nnnn nnnn nnnn`. -/
def formNnn (op : BitVec 4) (nnn : BitVec 12) : Word := op ++ nnn

/-- Format O_X_NN (R61): `oooo xxxx nnnn nnnn`. -/
def formXNn (op : BitVec 4) (x : Reg) (nn : Byte) : Word := (op ++ nibble x : BitVec 8) ++ nn

/-- Format O_X_Y_N (R61): `oooo xxxx yyyy nnnn`. -/
def formXYN (op : BitVec 4) (x y : Reg) (n : BitVec 4) : Word :=
  (op ++ nibble x : BitVec 8) ++ (nibble y ++ n : BitVec 8)

/-- The word of an instruction (R70). -/
def encode : Instr → Word
  | .cls => formNnn 0x0#4 0x0E0#12
  | .ret => formNnn 0x0#4 0x0EE#12
  | .sys nnn => formNnn 0x0#4 nnn
  | .jp nnn => formNnn 0x1#4 nnn
  | .call nnn => formNnn 0x2#4 nnn
  | .seVxNn x nn => formXNn 0x3#4 x nn
  | .sneVxNn x nn => formXNn 0x4#4 x nn
  | .seVxVy x y => formXYN 0x5#4 x y 0x0#4
  | .ldVxNn x nn => formXNn 0x6#4 x nn
  | .addVxNn x nn => formXNn 0x7#4 x nn
  | .ldVxVy x y => formXYN 0x8#4 x y 0x0#4
  | .orVxVy x y => formXYN 0x8#4 x y 0x1#4
  | .andVxVy x y => formXYN 0x8#4 x y 0x2#4
  | .xorVxVy x y => formXYN 0x8#4 x y 0x3#4
  | .addVxVy x y => formXYN 0x8#4 x y 0x4#4
  | .subVxVy x y => formXYN 0x8#4 x y 0x5#4
  | .shrVxVy x y => formXYN 0x8#4 x y 0x6#4
  | .subnVxVy x y => formXYN 0x8#4 x y 0x7#4
  | .shlVxVy x y => formXYN 0x8#4 x y 0xE#4
  | .sneVxVy x y => formXYN 0x9#4 x y 0x0#4
  | .ldINnn nnn => formNnn 0xA#4 nnn
  | .jpV0Nnn nnn => formNnn 0xB#4 nnn
  | .rndVxNn x nn => formXNn 0xC#4 x nn
  | .drwVxVyN x y n => formXYN 0xD#4 x y n
  | .skpVx x => formXNn 0xE#4 x 0x9E#8
  | .sknpVx x => formXNn 0xE#4 x 0xA1#8
  | .ldVxDt x => formXNn 0xF#4 x 0x07#8
  | .ldVxK x => formXNn 0xF#4 x 0x0A#8
  | .ldDtVx x => formXNn 0xF#4 x 0x15#8
  | .ldStVx x => formXNn 0xF#4 x 0x18#8
  | .addIVx x => formXNn 0xF#4 x 0x1E#8
  | .ldFVx x => formXNn 0xF#4 x 0x29#8
  | .ldBVx x => formXNn 0xF#4 x 0x33#8
  | .ldMemVx x => formXNn 0xF#4 x 0x55#8
  | .ldVxMem x => formXNn 0xF#4 x 0x65#8

/-! ### The opcode map as a table (R70) -/

/-- One row of the opcode map: a word fits it when `w &&& mask = pat`. -/
structure OpRow where
  pat : Word
  mask : Word
  deriving DecidableEq, Repr

def OpRow.fits (r : OpRow) (w : Word) : Bool := (w &&& r.mask) == r.pat

/-- The 35 rows of R70, in its order. -/
def opcodeMap : List OpRow :=
  [⟨0x00E0, 0xFFFF⟩, ⟨0x00EE, 0xFFFF⟩, ⟨0x0000, 0xF000⟩, ⟨0x1000, 0xF000⟩, ⟨0x2000, 0xF000⟩]
  ++ [⟨0x3000, 0xF000⟩, ⟨0x4000, 0xF000⟩, ⟨0x5000, 0xF00F⟩, ⟨0x6000, 0xF000⟩, ⟨0x7000, 0xF000⟩]
  ++ [⟨0x8000, 0xF00F⟩, ⟨0x8001, 0xF00F⟩, ⟨0x8002, 0xF00F⟩, ⟨0x8003, 0xF00F⟩, ⟨0x8004, 0xF00F⟩]
  ++ [⟨0x8005, 0xF00F⟩, ⟨0x8006, 0xF00F⟩, ⟨0x8007, 0xF00F⟩, ⟨0x800E, 0xF00F⟩, ⟨0x9000, 0xF00F⟩]
  ++ [⟨0xA000, 0xF000⟩, ⟨0xB000, 0xF000⟩, ⟨0xC000, 0xF000⟩, ⟨0xD000, 0xF000⟩, ⟨0xE09E, 0xF0FF⟩]
  ++ [⟨0xE0A1, 0xF0FF⟩, ⟨0xF007, 0xF0FF⟩, ⟨0xF00A, 0xF0FF⟩, ⟨0xF015, 0xF0FF⟩, ⟨0xF018, 0xF0FF⟩]
  ++ [⟨0xF01E, 0xF0FF⟩, ⟨0xF029, 0xF0FF⟩, ⟨0xF033, 0xF0FF⟩, ⟨0xF055, 0xF0FF⟩, ⟨0xF065, 0xF0FF⟩]

/-- The first row a word fits, by its position in the map, counted from 0 (R70: "selects the first row whose mask
and match fit it"). -/
def opcodeRow (w : Word) : Option Nat := opcodeMap.findIdx? (·.fits w)

/-- The position of an instruction's row in the map. -/
def Instr.rowIndex : Instr → Nat
  | .cls => 0
  | .ret => 1
  | .sys _ => 2
  | .jp _ => 3
  | .call _ => 4
  | .seVxNn _ _ => 5
  | .sneVxNn _ _ => 6
  | .seVxVy _ _ => 7
  | .ldVxNn _ _ => 8
  | .addVxNn _ _ => 9
  | .ldVxVy _ _ => 10
  | .orVxVy _ _ => 11
  | .andVxVy _ _ => 12
  | .xorVxVy _ _ => 13
  | .addVxVy _ _ => 14
  | .subVxVy _ _ => 15
  | .shrVxVy _ _ => 16
  | .subnVxVy _ _ => 17
  | .shlVxVy _ _ => 18
  | .sneVxVy _ _ => 19
  | .ldINnn _ => 20
  | .jpV0Nnn _ => 21
  | .rndVxNn _ _ => 22
  | .drwVxVyN _ _ _ => 23
  | .skpVx _ => 24
  | .sknpVx _ => 25
  | .ldVxDt _ => 26
  | .ldVxK _ => 27
  | .ldDtVx _ => 28
  | .ldStVx _ => 29
  | .addIVx _ => 30
  | .ldFVx _ => 31
  | .ldBVx _ => 32
  | .ldMemVx _ => 33
  | .ldVxMem _ => 34

end Sys2Proof
end

