-- ==== Sys2Proof/Config.lean ====
section
/-! DEFINITION. What is fixed for one VM instance: the parameters of spec/00_scope.md R6 to R10 (listed again as
configuration by 10_state.md R37 and R38), and the one free value of the spec, the random byte of CXNN (R11). -/

namespace Sys2Proof

/-- Parameter QUIRK (R9). -/
inductive Quirk where
  | chip8
  | superChip
  | xoChip
  deriving DecidableEq, Repr

/-- Parameter STACK_DEPTH, whose only legal values are 12 and 16 (R6). -/
inductive StackDepth where
  | twelve
  | sixteen
  deriving DecidableEq, Repr

/-- Parameter OOB_POLICY: what an address above 0xFFF does (R7). -/
inductive OobPolicy where
  | fault
  | mask
  deriving DecidableEq, Repr

/-- INSTS_PER_SECOND (R8), bounded so that IPF = floor(INSTS_PER_SECOND / 60) fits the 32 bits of the field CONFIG.ipf
(10_state.md R38; notes/assumptions/22.md). -/
abbrev InstsPerSecond := Fin (60 * 2 ^ 32)

/-- The configuration of a VM instance: no instruction writes it and reset keeps it (R37). -/
structure Config where
  quirk : Quirk
  stackDepth : StackDepth
  oobPolicy : OobPolicy
  instsPerSecond : InstsPerSecond
  /-- FONT_ROM, the 80 bytes loaded at 0x000 (R10). -/
  font : Vector Byte 80
  /-- ROM, the program image loaded at 0x200: at most 3584 bytes (R10), which `Config.romFits` says. -/
  rom : List Byte
  deriving DecidableEq, Repr

/-- The byte that the `n`-th draw of the random input gives (R11, R140): a FREE VALUE, under no law.
It has no body that a proof can use, so a claim holds for every sequence of draws (notes/assumptions/5.md). -/
opaque Config.randByte : Nat → Byte

end Sys2Proof
end

