-- ==== Sys2Proof/Machine/Defaults.lean ====
section
/-! DEFINITION. The default parameters of the spec, and the refusal of a configuration at power-on: IPF (R8),
the default FONT_ROM (spec/70_reset_and_hazards.md R149), the defaults of R6 to R10 and the legal values of
spec/10_state.md R38. -/

namespace Sys2Proof

/-- STACK_DEPTH as a number of slots (R6). -/
def StackDepth.slots : StackDepth → Nat
  | .twelve => 12
  | .sixteen => 16

/-- The number of call-stack slots of the instance (R6, R25). -/
def Config.depth (c : Config) : Nat := c.stackDepth.slots

/-- IPF, the instructions of one frame: floor(INSTS_PER_SECOND / 60) (R8). -/
def Config.ipf (c : Config) : Nat := c.instsPerSecond.val / 60

/-- The longest ROM, 0x1000 − 0x200 bytes (R10, R46). -/
def maxRomBytes : Nat := 3584

/-- The ROM image fits from 0x200 to 0xFFF (R46, R120). -/
def Config.romFits (c : Config) : Bool := c.rom.length ≤ maxRomBytes

/-- The default FONT_ROM (R149). PRESUMED: the spec marks these bytes as general knowledge (93 G1); a claim that
depends on them names `defaultFont` (notes/assumptions/2.md). -/
def defaultFont : Vector Byte 80 :=
  #v[0xF0, 0x90, 0x90, 0x90, 0xF0,  0x20, 0x60, 0x20, 0x20, 0x70,
     0xF0, 0x10, 0xF0, 0x80, 0xF0,  0xF0, 0x10, 0xF0, 0x10, 0xF0,
     0x90, 0x90, 0xF0, 0x10, 0x10,  0xF0, 0x80, 0xF0, 0x10, 0xF0,
     0xF0, 0x80, 0xF0, 0x90, 0xF0,  0xF0, 0x10, 0x20, 0x40, 0x40,
     0xF0, 0x90, 0xF0, 0x90, 0xF0,  0xF0, 0x90, 0xF0, 0x10, 0xF0,
     0xF0, 0x90, 0xF0, 0x90, 0x90,  0xE0, 0x90, 0xE0, 0x90, 0xE0,
     0xF0, 0x80, 0x80, 0x80, 0xF0,  0xE0, 0x90, 0x90, 0x90, 0xE0,
     0xF0, 0x80, 0xF0, 0x80, 0xF0,  0xF0, 0x80, 0xF0, 0x80, 0x80]

/-- The default configuration (R6 to R10) with no program image: the spec gives ROM no default, so the image is
empty (DESIGN CHOICE, notes/assumptions/3.md). -/
def Config.default : Config where
  quirk := .chip8
  stackDepth := .twelve
  oobPolicy := .fault
  instsPerSecond := ⟨500, by decide⟩
  font := defaultFont
  rom := []

/-- QUIRK from its two bits; code 3 is refused (R38). -/
def quirkOfBits : BitVec 2 → Option Quirk
  | 0#2 => some .chip8
  | 1#2 => some .superChip
  | 2#2 => some .xoChip
  | _ => none

/-- STACK_DEPTH from its five bits; all but 12 and 16 are refused (R38). -/
def stackDepthOfBits : BitVec 5 → Option StackDepth
  | 12#5 => some .twelve
  | 16#5 => some .sixteen
  | _ => none

/-- OOB_POLICY from its bit (R38). -/
def oobPolicyOfBit : BitVec 1 → OobPolicy
  | 0#1 => .fault
  | _ => .mask

/-- INSTS_PER_SECOND from its number; one whose IPF does not fit the 32 bits of CONFIG.ipf is refused (R38;
notes/assumptions/22.md). -/
def instsPerSecondOfNat (n : Nat) : Option InstsPerSecond :=
  if h : n < 60 * 2 ^ 32 then some ⟨n, h⟩ else none

/-- The configuration that the `config` port of R141 delivers before power-on, or `none` where a value is refused:
"A refused configuration value means the block does not power on" (R38). -/
def Config.ofPort (quirk : BitVec 2) (stackDepth : BitVec 5) (oob : BitVec 1) (instsPerSecond : Nat)
    (font : Vector Byte 80) : Option Config :=
  match quirkOfBits quirk, stackDepthOfBits stackDepth, instsPerSecondOfNat instsPerSecond with
  | some q, some d, some n =>
    some { quirk := q, stackDepth := d, oobPolicy := oobPolicyOfBit oob, instsPerSecond := n, font := font, rom := [] }
  | _, _, _ => none

/-! ### The CONFIG fields that the host reads back (R38) -/

/-- CONFIG.quirk. -/
def Quirk.bits : Quirk → BitVec 2
  | .chip8 => 0
  | .superChip => 1
  | .xoChip => 2

/-- CONFIG.stack_depth. -/
def StackDepth.bits : StackDepth → BitVec 5
  | .twelve => 12
  | .sixteen => 16

/-- CONFIG.oob_policy. -/
def OobPolicy.bits : OobPolicy → BitVec 1
  | .fault => 0
  | .mask => 1

/-- CONFIG.ipf, of 32 bits. -/
def Config.ipfBits (c : Config) : BitVec 32 := BitVec.ofNat 32 c.ipf

end Sys2Proof
end

