-- ==== Sys2Proof/Machine/State.lean ====
section
/-! DEFINITION. The state of the block (spec/10_state.md), as plain data, and its value after reset (R39, R147).
The last four fields are the model's own: the position inside the frame loop of spec/60_exceptions.md R130, the host
events not yet polled, what the last step put on the output event ports, and the count of draws. -/

namespace Sys2Proof.Machine

/-- FX0A's wait phase (R32). -/
inductive KwPhase where
  | idle
  | held
  deriving DecidableEq, Repr

/-- run_state (R35). -/
inductive RunState where
  | running
  | paused
  | quit
  | fault
  deriving DecidableEq, Repr

/-- fault_code (R36). -/
inductive FaultCode where
  | none
  | stackOverflow
  | stackUnderflow
  | fetchAddress
  | dataAddress
  | romLoad
  deriving DecidableEq, Repr

/-- The host events of an input poll (R137). -/
inductive HostEvent where
  | keyDown (k : KeyIndex)
  | keyUp (k : KeyIndex)
  | pauseToggle
  | reset
  | quit
  deriving DecidableEq, Repr

/-- The framebuffer: 32 rows of 64 one-bit pixels, row `y` holding `FB[x, y]` in its bit `x` (R30). -/
abbrev Framebuffer := Vector (BitVec 64) 32

/-- What a step can put on the output event ports of R141. -/
inductive Output where
  /-- `render` with `fb_out`: the snapshot handed to the display (R136) -/
  | render (fb : Framebuffer)
  /-- `unknown_opcode(a0, opcode)` (R146) -/
  | unknownOpcode (a0 opcode : Word)
  deriving DecidableEq, Repr

/-- Where the machine stands in the frame loop of R130. -/
inductive FramePos where
  /-- between frames: the next step is a frame_tick, which polls -/
  | awaitTick
  /-- inside an executed frame, with `left` instruction slots of its budget still to run (R131) -/
  | slots (left : Nat)
  deriving DecidableEq, Repr

/-- RAM, as the cells that differ from what reset put there (`Memory.read`, in Machine/Ops.lean). -/
abbrev Memory := List Host.Cell

structure State where
  /-- QUIRK, STACK_DEPTH, OOB_POLICY, INSTS_PER_SECOND, FONT_ROM and ROM (R37): no step writes it -/
  cfg : Config
  /-- V0 to VF (R18); V[0xF] is also the flag register (R19) -/
  v : Vector Byte 16
  /-- I (R24) -/
  i : Word
  /-- PC (R22) -/
  pc : Word
  /-- SP, the number of occupied slots (R26) -/
  sp : Nat
  /-- the call stack (R25): slots 0 to STACK_DEPTH − 1; a slot from STACK_DEPTH on does not exist and stays 0 -/
  stack : Vector Word 16
  /-- DT (R27) -/
  dt : Byte
  /-- ST (R28) -/
  st : Byte
  /-- RAM (R29) -/
  ram : Memory
  /-- FB (R30) -/
  fb : Framebuffer
  /-- the keypad latch, bit `k` for `Key[k]` (R31) -/
  key : BitVec 16
  /-- kw_phase (R32) -/
  kwPhase : KwPhase
  /-- kw_key (R32) -/
  kwKey : KeyIndex
  /-- tone_active (R34) -/
  toneActive : Bool
  /-- run_state (R35) -/
  runState : RunState
  /-- fault_code (R36) -/
  faultCode : FaultCode
  /-- fault_pc (R36) -/
  faultPc : Word
  /-- fault_addr (R36) -/
  faultAddr : BitVec 17
  /-- the model's own: the position in the frame loop (R130, R131) -/
  frame : FramePos
  /-- the model's own: the host-event list of each coming frame_tick, the next one first (R137, R141) -/
  inbox : List (List HostEvent)
  /-- the model's own: what the last step put on the output event ports (R141) -/
  out : Option Output
  /-- the model's own: how many random bytes have been drawn (R140) -/
  draws : Nat
  deriving DecidableEq, Repr

/-- Model-level faults: NONE. Every error the spec recognises ends in run_state FAULT, which is a next state (R117);
no step of this machine stops outside the spec's own states. Nobody raises a value of this type: safe. -/
inductive Fault where
  deriving DecidableEq, Repr

/-- Model-level refusals. -/
inductive Refusal where
  /-- Raised by `exec` alone, for an instruction of the opcode table that has no meaning yet; safe. No arm raises it
  now: all 35 instructions have their meaning. -/
  | notModelled (mnemonic : String)
  deriving DecidableEq, Repr

/-- The outcome of an instruction and of a step. -/
abbrev Result := Host.Outcome State Fault Refusal

/-- The state that the reset of R147 leaves in an instance of configuration `c`: RAM holds FONT_ROM, ROM and zeros
(nothing is listed), everything else is 0, idle or empty, PC is the entry point. The block then awaits its first
frame_tick (R150). -/
def State.init (c : Config) : State where
  cfg := c
  v := Vector.replicate 16 0
  i := 0
  pc := 0x200
  sp := 0
  stack := Vector.replicate 16 0
  dt := 0
  st := 0
  ram := []
  fb := Vector.replicate 32 0
  key := 0
  kwPhase := .idle
  kwKey := 0
  toneActive := false
  runState := .running
  faultCode := .none
  faultPc := 0
  faultAddr := 0
  frame := .awaitTick
  inbox := []
  out := none
  draws := 0

/-- The machine right after reset (R39), in the default configuration. -/
def State.reset : State := State.init Config.default

end Sys2Proof.Machine
end

