-- ==== Sys2Proof/Machine/Ops.lean ====
section
/-! DEFINITION. The shared operations: the updates of the state's fields, RAM and its address check
(spec/00_scope.md R13, spec/20_memory.md R47 to R55), the call stack, pixels, the key latch, taking a fault
(spec/60_exceptions.md R117), and fetching an opcode (spec/30_encoding.md R63). -/

namespace Sys2Proof.Machine

/-! ### Updates, one for each register -/

def State.setPc (s : State) (a : Word) : State := { s with pc := a }
def State.setI (s : State) (a : Word) : State := { s with i := a }
def State.setDt (s : State) (b : Byte) : State := { s with dt := b }
def State.setSt (s : State) (b : Byte) : State := { s with st := b }
def State.setRam (s : State) (m : Memory) : State := { s with ram := m }
def State.setFb (s : State) (f : Framebuffer) : State := { s with fb := f }
def State.setKey (s : State) (k : BitVec 16) : State := { s with key := k }
def State.setKw (s : State) (p : KwPhase) (k : KeyIndex) : State := { s with kwPhase := p, kwKey := k }
def State.setRunState (s : State) (r : RunState) : State := { s with runState := r }
def State.setFrame (s : State) (f : FramePos) : State := { s with frame := f }
def State.setOut (s : State) (o : Option Output) : State := { s with out := o }

/-- `V[x] <- b` (R12, R18): no register is hard-wired. -/
def State.setV (s : State) (x : Reg) (b : Byte) : State := { s with v := s.v.set x.val b x.isLt }

/-- `V[x]` (R12). -/
def State.getV (s : State) (x : Reg) : Byte := s.v[x.val]

/-! ### The program counter (R22) -/

/-- "advance PC by 2" (R63), modulo 2^16. -/
def State.advance (s : State) : State := s.setPc (s.pc + 2)

/-- A skip adds 2 to the PC again (R22). -/
def State.skipIf (s : State) (taken : Bool) : State := if taken then s.setPc (s.pc + 2) else s

/-! ### RAM (R29, R43, R55) -/

/-- What reset leaves at address `a` (R147, R148): the font, the ROM, or 0. This is what an address that `ram` does not
list reads as. -/
def resetByte (c : Config) (a : Nat) : Byte :=
  if h : a < 80 then c.font[a]
  else if 0x200 ≤ a ∧ a < 0x1000 then c.rom.getD (a - 0x200) 0
  else 0

/-- The byte of the cell `a`: the listed one, or what reset left there. -/
def Memory.read (c : Config) : Memory → Nat → Byte
  | [], a => resetByte c a
  | (k, b) :: m, a => if k = a then b else Memory.read c m a

/-- List the byte `b` at `a`, in address order. -/
def Memory.insert (a : Nat) (b : Byte) : Memory → Memory
  | [] => [(a, b)]
  | (k, d) :: m =>
    if a < k then (a, b) :: (k, d) :: m
    else if a = k then (a, b) :: m
    else (k, d) :: Memory.insert a b m

/-- List nothing at `a`. -/
def Memory.erase (a : Nat) : Memory → Memory
  | [] => []
  | (k, d) :: m => if k = a then m else (k, d) :: Memory.erase a m

/-- Write the byte `b` at `a`; a byte equal to what reset left there is not listed. -/
def Memory.write (c : Config) (m : Memory) (a : Nat) (b : Byte) : Memory :=
  if b = resetByte c a then Memory.erase a m else Memory.insert a b m

/-- The canonical form: addresses of the 4 KiB space, strictly rising, and no entry equal to what an unlisted
address reads as. -/
def Memory.wf (c : Config) (m : Memory) : Bool :=
  decide (m.Pairwise fun p q => p.1 < q.1) && m.all fun p => decide (p.1 < 0x1000) && p.2 != resetByte c p.1

/-- `RAM[a]`, for a RAM index `a`. -/
def State.ramByte (s : State) (a : Nat) : Byte := Memory.read s.cfg s.ram a

/-- `RAM[a] <- b`, for a RAM index `a`. -/
def State.setRamByte (s : State) (a : Nat) (b : Byte) : State := s.setRam (Memory.write s.cfg s.ram a b)

/-- Write bytes at RAM indexes, one after another (R48, R50). -/
def State.setRamBytes (s : State) : List (Nat × Byte) → State
  | [] => s
  | (a, b) :: rest => (s.setRamByte a b).setRamBytes rest

/-- `Addr(a)` (R13, R52): the RAM index of an exact integer address, or the address that faults. -/
def addr (p : OobPolicy) (a : Nat) : Except Nat Nat :=
  if a ≤ 0xFFF then .ok a
  else
    match p with
    | .mask => .ok (a % 0x1000)
    | .fault => .error a

/-- `Addr(a), Addr(a + 1), …`, `n` of them: all the RAM indexes, or the lowest address that faults (R118). -/
def addrRange (p : OobPolicy) (a : Nat) : Nat → Except Nat (List Nat)
  | 0 => .ok []
  | n + 1 =>
    match addr p a with
    | .error e => .error e
    | .ok k =>
      match addrRange p (a + 1) n with
      | .error e => .error e
      | .ok ks => .ok (k :: ks)

/-- The RAM indexes of the `n` data bytes at I, I + 1, … (R52), or the lowest address that faults. -/
def State.dataAddrs (s : State) (n : Nat) : Except Nat (List Nat) := addrRange s.cfg.oobPolicy s.i.toNat n

/-! ### The call stack (R25, R26) -/

/-- `stack[k]`. -/
def State.slot (s : State) (k : Nat) : Word := (s.stack[k]?).getD 0

/-- `stack[SP] <- a; SP <- SP + 1`. -/
def State.push (s : State) (a : Word) : State :=
  { s with stack := s.stack.setIfInBounds s.sp a, sp := s.sp + 1 }

/-- `SP <- SP - 1`; the slot keeps its value (R78). -/
def State.pop (s : State) : State := { s with sp := s.sp - 1 }

/-! ### The framebuffer (R30) -/

/-- `FB[x, y]`. -/
def Framebuffer.pixel (f : Framebuffer) (x y : Nat) : Bool := ((f[y]?).getD 0).getLsbD x

/-- The pixel at a row-major index of the `fb_out` port: index = y·64 + x (R30, R141). -/
def Framebuffer.bit (f : Framebuffer) (index : Nat) : Bool := f.pixel (index % 64) (index / 64)

/-- `FB[x, y] <- FB[x, y] XOR bit`. -/
def Framebuffer.xorPixel (f : Framebuffer) (x y : Nat) (bit : Bool) : Framebuffer :=
  f.setIfInBounds y (((f[y]?).getD 0) ^^^ (if bit then 1#64 <<< x else 0#64))

/-- All pixels 0 (R77). -/
def Framebuffer.clear : Framebuffer := Vector.replicate 32 0

/-! ### The keypad latch (R31) -/

/-- `Key[k]`. -/
def State.keyHeld (s : State) (k : KeyIndex) : Bool := s.key.getLsbD k.val

/-- The lowest held key, `min { k | Key[k] = 1 }`, if any is held (R112). -/
def State.lowestHeld (s : State) : Option KeyIndex := (List.finRange 16).find? fun k => s.keyHeld k

/-- The latch with `Key[k]` set or cleared. -/
def latchWith (key : BitVec 16) (k : KeyIndex) (down : Bool) : BitVec 16 :=
  if down then key ||| (1#16 <<< k.val) else key &&& ~~~(1#16 <<< k.val)

/-! ### Faults (R117) -/

/-- `raise Fault(code, addr)` by the instruction at `s.pc`, `s` being the state before it: PC stays at that
instruction, the record is written, run_state becomes FAULT, and the rest of the frame is abandoned (R117, R132).
Nothing else changes. -/
def State.raiseFault (s : State) (code : FaultCode) (a : Nat) : State :=
  { s with runState := .fault, faultCode := code, faultPc := s.pc, faultAddr := BitVec.ofNat 17 a,
           frame := .awaitTick }

/-- The instruction body `k` on the RAM indexes of its `n` data bytes, or DATA_ADDRESS with the lowest faulting
address; all checks come before any effect (R14, R118). -/
def State.withData (s : State) (n : Nat) (k : List Nat → State) : State :=
  match s.dataAddrs n with
  | .error a => s.raiseFault .dataAddress a
  | .ok ks => k ks

/-! ### Fetch (R47, R63) -/

/-- The opcode at PC, or the lowest fetch address that faults. -/
def State.fetch (s : State) : Except Nat Word :=
  match addr s.cfg.oobPolicy s.pc.toNat with
  | .error a => .error a
  | .ok hi =>
    match addr s.cfg.oobPolicy (s.pc.toNat + 1) with
    | .error a => .error a
    | .ok lo => .ok (wordOfBytes (s.ramByte hi) (s.ramByte lo))

/-- An unassigned word: PC advances and the event `unknown_opcode(a0, opcode)` is emitted; nothing else (R74). -/
def State.unknownOpcode (s : State) (opcode : Word) : State :=
  s.advance.setOut (some (.unknownOpcode s.pc opcode))

/-- Place the word `w` where the next fetch reads (`State.withFetchWord`): nowhere where that fetch would fault. -/
def State.placeWord (s : State) (w : Word) : State :=
  match addrRange s.cfg.oobPolicy s.pc.toNat 2 with
  | .ok ks => s.setRamBytes (ks.zip [highByte w, lowByte w])
  | .error _ => s

/-! ### What the host reads (R38) -/

/-- RUN_STATE.state. -/
def RunState.bits : RunState → BitVec 2
  | .running => 0
  | .paused => 1
  | .quit => 2
  | .fault => 3

/-- FAULT.code. -/
def FaultCode.bits : FaultCode → BitVec 3
  | .none => 0
  | .stackOverflow => 1
  | .stackUnderflow => 2
  | .fetchAddress => 3
  | .dataAddress => 4
  | .romLoad => 5

end Sys2Proof.Machine
end

