-- ==== Sys2Proof/Machine/Operands.lean ====
section
/-! DEFINITION. The operand forms of spec/30_encoding.md R62 and R71: zero-extended immediates, the nibble of V[X]
that names a key or a glyph, the shift source that QUIRK selects, the random draw, the decimal digits, and the
register range V[0..X]. -/

namespace Sys2Proof.Machine

/-- NNN as a 16-bit address (R62). -/
def zext16 (nnn : BitVec 12) : Word := nnn.setWidth 16

/-- The key that `V[x]` names: its low nibble (R71, R87). -/
def State.keyOf (s : State) (x : Reg) : KeyIndex := ((s.getV x).extractLsb' 0 4).toFin

/-- The address of the glyph that `V[x]` names: its low nibble times 5 (R71, R113). -/
def State.glyphAddr (s : State) (x : Reg) : Word := ((s.getV x) &&& 0xF).setWidth 16 * 5

/-- The operand of 8XY6 and 8XYE: V[Y] when QUIRK = CHIP-8, otherwise V[X] (R98, R100). -/
def State.shiftSource (s : State) (x y : Reg) : Byte :=
  if s.cfg.quirk = .chip8 then s.getV y else s.getV x

/-- The byte of the next random draw: a free value (R11, R140). -/
def State.drawByte (s : State) : Byte := Config.randByte s.draws

/-- The draw is used up: the next one is a fresh one (R101). -/
def State.countDraw (s : State) : State := { s with draws := s.draws + 1 }

/-- The three decimal digits of a byte, hundreds first (R114). -/
def bcdDigits (b : Byte) : List Byte :=
  [BitVec.ofNat 8 (b.toNat / 100), BitVec.ofNat 8 (b.toNat / 10 % 10), BitVec.ofNat 8 (b.toNat % 10)]

/-- The bytes of V[0] to V[x], in that order: x + 1 of them (R71, R115). -/
def State.regBytes (s : State) (x : Reg) : List Byte := s.v.toList.take (x.val + 1)

/-- `V[k] <- b, V[k + 1] <- …` for the bytes of a list; a register past VF is none (R116). -/
def State.setVs (s : State) (k : Nat) : List Byte → State
  | [] => s
  | b :: bs => State.setVs (if h : k < 16 then s.setV ⟨k, h⟩ b else s) (k + 1) bs

/-- I after FX55 and FX65: I0 + X + 1 modulo 2^16 when QUIRK = CHIP-8, otherwise I0 (R115, R116). -/
def State.advanceI (s : State) (x : Reg) : State :=
  if s.cfg.quirk = .chip8 then s.setI (s.i + BitVec.ofNat 16 (x.val + 1)) else s

end Sys2Proof.Machine
end

