-- ==== Sys2Proof/Machine/Flags.lean ====
section
/-! DEFINITION. Every flag computation of spec/10_state.md R20, and the write order of R21: V[X] first, VF last. -/

namespace Sys2Proof.Machine

/-- A flag's value in VF: 1 or 0. -/
def flagByte (b : Bool) : Byte := if b then 1 else 0

/-- Carry out of bit 7 of a + b (R96). -/
def carryOut (a b : Byte) : Bool := decide (255 < a.toNat + b.toNat)

/-- No borrow in a − b: a ≥ b (R97, R99). -/
def noBorrow (a b : Byte) : Bool := decide (b.toNat ≤ a.toNat)

/-- The bit that a right shift by one shifts out: bit 0 (R98). -/
def shiftedOutRight (a : Byte) : Bool := a.getLsbD 0

/-- The bit that a left shift by one shifts out: bit 7 (R100). -/
def shiftedOutLeft (a : Byte) : Bool := a.getLsbD 7

/-- `V[F] <- flag`. -/
def State.setFlag (s : State) (b : Bool) : State := s.setV vf (flagByte b)

/-- A result and its flag: V[X] is written next to last and VF last, so the flag wins when X = F (R21). -/
def State.setResultFlag (s : State) (x : Reg) (r : Byte) (b : Bool) : State := (s.setV x r).setFlag b

/-- A logic result: V[X] is written, and then VF is reset to 0 when QUIRK = CHIP-8 (R20, R93 to R95). -/
def State.setLogicResult (s : State) (x : Reg) (r : Byte) : State :=
  if s.cfg.quirk = .chip8 then s.setResultFlag x r false else s.setV x r

end Sys2Proof.Machine
end

