-- ==== Sys2Proof/Machine/FxTransfers.lean ====
section
/-! DEFINITION. The instructions of spec/44_fx_transfers.md: FX07, FX15, FX18, FX1E, FX0A, FX29, FX33, FX55, FX65. -/

namespace Sys2Proof.Machine

/-- R108 -/
def execLdVxDt (x : Reg) (s : State) : Result := .next (s.advance.setV x s.dt)

/-- R109 -/
def execLdDtVx (x : Reg) (s : State) : Result := .next (s.advance.setDt (s.getV x))

/-- R110: tone_active is not updated here. -/
def execLdStVx (x : Reg) (s : State) : Result := .next (s.advance.setSt (s.getV x))

/-- R111: modulo 2^16, no flag. -/
def execAddIVx (x : Reg) (s : State) : Result := .next (s.advance.setI (s.i + (s.getV x).setWidth 16))

/-- FX0A runs again on the next cycle: the advance is undone (R112). -/
def State.repeatInstr (s : State) : State := s.setPc (s.pc - 2)

/-- R112: the two-phase wait for a press and a release. -/
def execLdVxK (x : Reg) (s : State) : Result :=
  .next (match s.kwPhase with
    | .idle =>
      match s.lowestHeld with
      | none => s.advance.repeatInstr
      | some k => (s.advance.setKw .held k).repeatInstr
    | .held =>
      if s.keyHeld s.kwKey then s.advance.repeatInstr
      else (s.advance.setV x (BitVec.ofNat 8 s.kwKey.val)).setKw .idle s.kwKey)

/-- R113 -/
def execLdFVx (x : Reg) (s : State) : Result := .next (s.advance.setI (s.glyphAddr x))

/-- R114 -/
def execLdBVx (x : Reg) (s : State) : Result :=
  .next (s.withData 3 fun ks => s.advance.setRamBytes (ks.zip (bcdDigits (s.getV x))))

/-- R115 -/
def execLdMemVx (x : Reg) (s : State) : Result :=
  .next (s.withData (x.val + 1) fun ks => (s.advance.setRamBytes (ks.zip (s.regBytes x))).advanceI x)

/-- R116 -/
def execLdVxMem (x : Reg) (s : State) : Result :=
  .next (s.withData (x.val + 1) fun ks => (s.advance.setVs 0 (ks.map s.ramByte)).advanceI x)

end Sys2Proof.Machine
end

