-- ==== Sys2Proof/Machine/LoadsAlu.lean ====
section
/-! DEFINITION. The instructions of spec/42_loads_alu.md: 6XNN, 7XNN, ANNN, 8XY0 to 8XY7, 8XYE, CXNN. Every operand is
read from the state before the instruction, so it is the old value where Y = F or Y = X (R21). Sums and differences
are exact and cut to 8 bits at the end (R12, R102). -/

namespace Sys2Proof.Machine

/-- R89 -/
def execLdVxNn (x : Reg) (nn : Byte) (s : State) : Result := .next (s.advance.setV x nn)

/-- R90: no flag. -/
def execAddVxNn (x : Reg) (nn : Byte) (s : State) : Result :=
  .next (s.advance.setV x (BitVec.ofNat 8 ((s.getV x).toNat + nn.toNat)))

/-- R91 -/
def execLdINnn (nnn : BitVec 12) (s : State) : Result := .next (s.advance.setI (zext16 nnn))

/-- R92 -/
def execLdVxVy (x y : Reg) (s : State) : Result := .next (s.advance.setV x (s.getV y))

/-- R93 -/
def execOr (x y : Reg) (s : State) : Result := .next (s.advance.setLogicResult x (s.getV x ||| s.getV y))

/-- R94 -/
def execAnd (x y : Reg) (s : State) : Result := .next (s.advance.setLogicResult x (s.getV x &&& s.getV y))

/-- R95 -/
def execXor (x y : Reg) (s : State) : Result := .next (s.advance.setLogicResult x (s.getV x ^^^ s.getV y))

/-- R96 -/
def execAddVxVy (x y : Reg) (s : State) : Result :=
  .next (s.advance.setResultFlag x (BitVec.ofNat 8 ((s.getV x).toNat + (s.getV y).toNat))
    (carryOut (s.getV x) (s.getV y)))

/-- R97 -/
def execSub (x y : Reg) (s : State) : Result :=
  .next (s.advance.setResultFlag x (s.getV x - s.getV y) (noBorrow (s.getV x) (s.getV y)))

/-- R98 -/
def execShr (x y : Reg) (s : State) : Result :=
  .next (s.advance.setResultFlag x (s.shiftSource x y >>> 1) (shiftedOutRight (s.shiftSource x y)))

/-- R99 -/
def execSubn (x y : Reg) (s : State) : Result :=
  .next (s.advance.setResultFlag x (s.getV y - s.getV x) (noBorrow (s.getV y) (s.getV x)))

/-- R100 -/
def execShl (x y : Reg) (s : State) : Result :=
  .next (s.advance.setResultFlag x (s.shiftSource x y <<< 1) (shiftedOutLeft (s.shiftSource x y)))

/-- R101: the drawn byte under the mask NN. -/
def execRnd (x : Reg) (nn : Byte) (s : State) : Result := .next (s.advance.countDraw.setV x (s.drawByte &&& nn))

end Sys2Proof.Machine
end

