-- ==== Sys2Proof/Machine/Skips.lean ====
section
/-! DEFINITION. The instructions of spec/41_skips.md: 3XNN, 4XNN, 5XY0, 9XY0, EX9E, EXA1. -/

namespace Sys2Proof.Machine

/-- R83 -/
def execSeVxNn (x : Reg) (nn : Byte) (s : State) : Result := .next (s.advance.skipIf (s.getV x == nn))

/-- R84 -/
def execSneVxNn (x : Reg) (nn : Byte) (s : State) : Result := .next (s.advance.skipIf (s.getV x != nn))

/-- R85 -/
def execSeVxVy (x y : Reg) (s : State) : Result := .next (s.advance.skipIf (s.getV x == s.getV y))

/-- R86 -/
def execSneVxVy (x y : Reg) (s : State) : Result := .next (s.advance.skipIf (s.getV x != s.getV y))

/-- R87 -/
def execSkp (x : Reg) (s : State) : Result := .next (s.advance.skipIf (s.keyHeld (s.keyOf x)))

/-- R88 -/
def execSknp (x : Reg) (s : State) : Result := .next (s.advance.skipIf (!s.keyHeld (s.keyOf x)))

end Sys2Proof.Machine
end

