-- ==== Sys2Proof/Machine/Sprite.lean ====
section
/-! DEFINITION. The sprite XOR blitter of spec/43_sprite_blitter.md: DXYN. -/

namespace Sys2Proof.Machine

/-- A drawing in progress: the framebuffer, and whether a lit pixel was toggled off so far (R103). -/
structure Blit where
  fb : Framebuffer
  hit : Bool
  deriving DecidableEq, Repr

/-- One sprite bit at pixel (x, y): a 1 bit on a lit pixel is a collision; then the pixel is XORed (R103). -/
def blitPixel (x y : Nat) (bit : Bool) (b : Blit) : Blit where
  hit := b.hit || (bit && b.fb.pixel x y)
  fb := b.fb.xorPixel x y bit

/-- The next `n` columns of a row, from sprite column `col` on: column `col` is bit 7 − col and falls at
x0 + col; at 64 or more the rest of the row is clipped (R103, R106). -/
def blitRow (byte : Byte) (x0 y : Nat) : Nat → Nat → Blit → Blit
  | 0, _, b => b
  | n + 1, col, b =>
    if 64 ≤ x0 + col then b
    else blitRow byte x0 y n (col + 1) (blitPixel (x0 + col) y (byte.getLsbD (7 - col)) b)

/-- The rows of a sprite, downward from `y` (R103). -/
def blitRows (x0 : Nat) : Nat → List Byte → Blit → Blit
  | _, [], b => b
  | y, byte :: rest, b => blitRows x0 (y + 1) rest (blitRow byte x0 y 8 0 b)

/-- x0 = V[X] mod 64, the origin's column (R103). -/
def State.originX (s : State) (x : Reg) : Nat := (s.getV x).toNat % 64

/-- y0 = V[Y] mod 32, the origin's row (R103). -/
def State.originY (s : State) (y : Reg) : Nat := (s.getV y).toNat % 32

/-- The rows that are drawn, and fetched: min(N, 32 − y0) (R50, R103). -/
def State.spriteRows (s : State) (y : Reg) (n : BitVec 4) : Nat := min n.toNat (32 - s.originY y)

/-- The sprite bytes at the RAM indexes `ks`, drawn at the origin that V[X] and V[Y] name, onto the framebuffer. -/
def State.blit (s : State) (x y : Reg) (ks : List Nat) : Blit :=
  blitRows (s.originX x) (s.originY y) (ks.map s.ramByte) ⟨s.fb, false⟩

/-- R103: the coordinates are read before VF is written, and only the drawn rows are fetched; I is unchanged. -/
def execDrw (x y : Reg) (n : BitVec 4) (s : State) : Result :=
  .next (s.withData (s.spriteRows y n) fun ks =>
    (s.advance.setFb (s.blit x y ks).fb).setFlag (s.blit x y ks).hit)

end Sys2Proof.Machine
end

