-- ==== Sys2Proof/Machine/SystemFlow.lean ====
section
/-! DEFINITION. The instructions of spec/40_system_flow.md: 00E0, 00EE, 0NNN, 1NNN, 2NNN, BNNN. In this and every
other family, `s` is the state before the instruction, PC being its own address `a0`; the body runs on `s.advance`,
whose PC is a0 + 2 (R63), and a fault is raised on `s` (R14, R117). -/

namespace Sys2Proof.Machine

/-- R77 -/
def execCls (s : State) : Result := .next (s.advance.setFb Framebuffer.clear)

/-- R78: the pop faults when SP = 0. -/
def execRet (s : State) : Result :=
  .next (if s.sp = 0 then s.raiseFault .stackUnderflow 0
    else s.pop.setPc (s.pop.slot s.pop.sp))

/-- R79: nothing but the advance, whatever NNN is. -/
def execSys (_nnn : BitVec 12) (s : State) : Result := .next s.advance

/-- R80 -/
def execJp (nnn : BitVec 12) (s : State) : Result := .next (s.advance.setPc (zext16 nnn))

/-- R81: the push faults when the stack is full, SP = STACK_DEPTH (SP is never above it, R26). -/
def execCall (nnn : BitVec 12) (s : State) : Result :=
  .next (if s.cfg.depth ≤ s.sp then s.raiseFault .stackOverflow 0
    else (s.advance.push s.advance.pc).setPc (zext16 nnn))

/-- R82: always V[0], whatever QUIRK is. -/
def execJpV0 (nnn : BitVec 12) (s : State) : Result :=
  .next (s.advance.setPc ((s.getV 0).setWidth 16 + zext16 nnn))

end Sys2Proof.Machine
end

