-- ==== Sys2Proof/Machine/Pacer.lean ====
section
/-! DEFINITION. The lifecycle controller and the frame pacer: reset and power-on (spec/70_reset_and_hazards.md R147,
R150), the input poll and the run-state machine (spec/60_exceptions.md R127, R137), the frame_tick and the end of a
frame (R130, R133, R134, R136). -/

namespace Sys2Proof.Machine

/-- The reset of R147. It reads only configuration; the model's own position in the frame loop, the events still to
come, the output ports and the count of draws are no state of the block and stay (notes/assumptions/10.md). -/
def State.hostReset (s : State) : State :=
  { State.init s.cfg with frame := s.frame, inbox := s.inbox, out := s.out, draws := s.draws }

/-- Power-on with an image, `none` being an image that cannot be read (R150): a failure to load ends in QUIT with
ROM_LOAD (R120), and otherwise the block is as after reset. -/
def powerOn (c : Config) (image : Option (List Byte)) : State :=
  match image with
  | none => { State.init c with runState := .quit, faultCode := .romLoad }
  | some rom =>
    if Config.romFits { c with rom := rom } then State.init { c with rom := rom }
    else { State.init c with runState := .quit, faultCode := .romLoad }

/-- One host event (R137), with the run-state transitions of R127; QUIT is terminal (R129). -/
def State.applyEvent (s : State) (e : HostEvent) : State :=
  if s.runState = .quit then s
  else
    match e with
    | .keyDown k => s.setKey (latchWith s.key k true)
    | .keyUp k => s.setKey (latchWith s.key k false)
    | .pauseToggle =>
      match s.runState with
      | .running => s.setRunState .paused
      | .paused => s.setRunState .running
      | _ => s
    | .reset => s.hostReset
    | .quit => s.setRunState .quit

/-- The poll: the events in arrival order; a QUIT discards the later ones (R130, R137). -/
def State.poll (s : State) : List HostEvent → State
  | [] => s
  | e :: es => if (s.applyEvent e).runState = .quit then s.applyEvent e else (s.applyEvent e).poll es

/-- The tick's event list leaves the queue, and the output event ports are idle. -/
def State.takeTick (s : State) : State := { s with inbox := s.inbox.tail, out := none }

/-- After the poll: a RUNNING frame has its budget of IPF slots before it (R131); otherwise the frame is over
(R128, R129). -/
def State.openFrame (s : State) : State :=
  s.setFrame (if s.runState = .running then .slots s.cfg.ipf else .awaitTick)

/-- One frame_tick (R130): nothing in QUIT (R129); otherwise the poll of the tick's events, none being queued
counting as none having arrived. -/
def State.tick (s : State) : State :=
  if s.runState = .quit then s.takeTick
  else (s.takeTick.poll (s.inbox.headD [])).openFrame

/-- One of DT and ST at the end of a frame: down by 1 if above 0 (R133). -/
def countDown (t : Byte) : Byte := if t = 0 then 0 else t - 1

/-- The end of a RUNNING frame that did not fault (R130): the render, then the decrement of both timers (R133), then
the tone flag from the decremented ST (R134). -/
def State.endFrame (s : State) : State :=
  { s with out := some (.render s.fb), dt := countDown s.dt, st := countDown s.st,
           toneActive := decide (countDown s.st ≠ 0), frame := .awaitTick }

/-- An instruction step uses one slot of the frame's budget (R131), and the output event ports are idle until it
emits an event. -/
def State.takeSlot (s : State) (left : Nat) : State := { s with frame := .slots left, out := none }

end Sys2Proof.Machine
end

