-- ==== Sys2Proof/Machine/Cycle.lean ====
section
/-! DEFINITION. The instruction step of spec/30_encoding.md R63, and the placing of one word before it. -/

namespace Sys2Proof.Machine

/-- The instruction step of R63, `s` being the state whose slot is already taken: fetch, decode, execute. A fetch that
faults raises FETCH_ADDRESS (R118); an unassigned word is a no-op with an event (R74). -/
def State.runInstr (s : State) : Result :=
  match s.fetch with
  | .error a => .next (s.raiseFault .fetchAddress a)
  | .ok w =>
    match decode w with
    | .ok i => exec i s
    | .error _ => .next (s.unknownOpcode w)

/-- `s` in a RUNNING frame with at least one slot left, so that its next step is an instruction step. -/
def State.inSlot (s : State) : State :=
  (s.setRunState .running).setFrame
    (match s.frame with
      | .slots (left + 1) => .slots (left + 1)
      | _ => .slots (max 1 s.cfg.ipf))

end Sys2Proof.Machine
end

