-- ==== Sys2Proof/Machine/Step.lean ====
section
/-! DEFINITION. One step of the machine: a frame_tick, one instruction step, or the end of a frame, in the order of
the frame loop of spec/60_exceptions.md R130. -/

namespace Sys2Proof.Machine

/-- One step. While run_state = RUNNING and the frame has slots left it is an instruction step (R63, R131), with none
left it is the end of the frame; in every other case it is the next frame_tick (R128 to R130). -/
def step (s : State) : Host.Outcome State Fault Refusal :=
  match s.runState, s.frame with
  | .running, .slots (left + 1) => (s.takeSlot left).runInstr
  | .running, .slots 0 => .next s.endFrame
  | _, _ => .next s.tick

/-- `s` with the instruction word `w` stored where the next step fetches, and with run_state and the position in the
frame set so that the next step is an instruction step (notes/assumptions/17.md). -/
def State.withFetchWord (s : State) (nbits w : Nat) : State :=
  (s.placeWord (BitVec.ofNat 16 (w % 2 ^ nbits))).inSlot

end Sys2Proof.Machine
end

