-- ==== Sys2Proof/Safety.lean ====
section
/-! DEFINITION. The terms that claims use: what counts as a failed run and as an end (spec/70_reset_and_hazards.md
R160), the invariants of spec/10_state.md R41, what an instruction leaves as it was, the sprite bits of
spec/43_sprite_blitter.md R104 to R106 written without the drawing loop, and the frame of spec/60_exceptions.md R130
as one function. -/

namespace Sys2Proof.Machine

/-! ### Ends of a run (R160) -/

/-- A faulted machine is a failed run, never a normal end. -/
def State.Failed (s : State) : Prop := s.runState = .fault

/-- The stop idiom: the instruction at PC is a 1NNN whose NNN is its own address. -/
def State.AtStopIdiom (s : State) : Prop := ∃ nnn, s.fetch = .ok (encode (.jp nnn)) ∧ nnn.toNat = s.pc.toNat

/-! ### Encodings -/

/-- The word of `i` is the number `n`, and it decodes to `i` if it is one of the words of `i`'s row. -/
def Codes (i : Instr) (n : Nat) : Prop := (encode i).toNat = n ∧ (i.wf = true → decode (encode i) = .ok i)

/-! ### What is left as it was -/

/-- The parts of the state. `host` is everything that no completing instruction may write: configuration, keypad latch,
tone flag, run state, fault record, and the model's own frame position, event queue and output ports. -/
inductive Part where
  | v | i | pc | sp | stack | dt | st | ram | fb | kw | draws | host
  deriving DecidableEq, Repr

/-- The part reads the same in `t` as in `s`; RAM by its bytes, one address at a time. -/
def Part.Same (s t : State) : Part → Prop
  | .v => ∀ x, t.getV x = s.getV x
  | .i => t.i = s.i
  | .pc => t.pc = s.pc
  | .sp => t.sp = s.sp
  | .stack => t.stack = s.stack
  | .dt => t.dt = s.dt
  | .st => t.st = s.st
  | .ram => ∀ a, t.ramByte a = s.ramByte a
  | .fb => t.fb = s.fb
  | .kw => t.kwPhase = s.kwPhase ∧ t.kwKey = s.kwKey
  | .draws => t.draws = s.draws
  | .host => t.cfg = s.cfg ∧ t.key = s.key ∧ t.toneActive = s.toneActive ∧ t.runState = s.runState ∧
      t.faultCode = s.faultCode ∧ t.faultPc = s.faultPc ∧ t.faultAddr = s.faultAddr ∧ t.frame = s.frame ∧
      t.inbox = s.inbox ∧ t.out = s.out

/-- Every part but those listed reads the same in `t` as in `s`. -/
def SameExcept (ps : List Part) (s t : State) : Prop := ∀ p, p ∉ ps → p.Same s t

/-- Every data register but those listed reads the same in `t` as in `s`. -/
def SameRegsExcept (xs : List Reg) (s t : State) : Prop := ∀ x, x ∉ xs → t.getV x = s.getV x

/-- The data registers that an instruction may write: V[X] by the writers of R18, and VF as well by those of R20. -/
def State.writtenRegs (s : State) : Instr → List Reg
  | .ldVxNn x _ | .addVxNn x _ | .ldVxVy x _ | .rndVxNn x _ | .ldVxDt x | .ldVxK x => [x]
  | .orVxVy x _ | .andVxVy x _ | .xorVxVy x _ => if s.cfg.quirk = .chip8 then [x, vf] else [x]
  | .addVxVy x _ | .subVxVy x _ | .shrVxVy x _ | .subnVxVy x _ | .shlVxVy x _ => [x, vf]
  | .drwVxVyN _ _ _ => [vf]
  | .ldVxMem x => (List.finRange 16).filter fun k => k ≤ x
  | .cls | .ret | .sys _ | .jp _ | .call _ | .seVxNn _ _ | .sneVxNn _ _ | .seVxVy _ _ | .sneVxVy _ _ | .ldINnn _
  | .jpV0Nnn _ | .skpVx _ | .sknpVx _ | .ldDtVx _ | .ldStVx _ | .addIVx _ | .ldFVx _ | .ldBVx _ | .ldMemVx _ => []

/-! ### Data accesses (R50) -/

/-- The number of data bytes that an instruction accesses, from I on (R50). -/
def State.dataBytes (s : State) : Instr → Nat
  | .drwVxVyN _ y n => s.spriteRows y n
  | .ldBVx _ => 3
  | .ldMemVx x => x.val + 1
  | .ldVxMem x => x.val + 1
  | _ => 0

/-- None of the `n` bytes at I, I + 1, … faults: there is none, or the last one is in RAM, or addresses are masked
(R13, R52). -/
def State.CanAccess (s : State) (n : Nat) : Prop :=
  n = 0 ∨ s.i.toNat + n ≤ 0x1000 ∨ s.cfg.oobPolicy = .mask

/-- The RAM indexes of the `n` bytes at I, I + 1, … where none faults. -/
def State.dataIndexes (s : State) (n : Nat) : List Nat := (List.range n).map fun k => (s.i.toNat + k) % 0x1000

/-! ### Sprites, without the loop (R104 to R106) -/

/-- Pixel (px, py) lies in the drawn region of DXYN (R104). -/
def State.inRegion (s : State) (x y : Reg) (n : BitVec 4) (px py : Nat) : Bool :=
  decide (s.originX x ≤ px ∧ px < min (s.originX x + 8) 64 ∧ s.originY y ≤ py ∧ py < min (s.originY y + n.toNat) 32)

/-- The sprite bit that DXYN puts on pixel (px, py): row py − y0 is the byte at I + (py − y0), and column px − x0 is its
bit 7 − (px − x0) (R106); outside the drawn region there is none. The address is taken modulo 0x1000, which is the RAM
index of every address that does not fault (R13). -/
def State.spriteBit (s : State) (x y : Reg) (n : BitVec 4) (px py : Nat) : Bool :=
  s.inRegion x y n px py &&
    (s.ramByte ((s.i.toNat + (py - s.originY y)) % 0x1000)).getLsbD (7 - (px - s.originX x))

/-! ### Invariants (R41) -/

/-- SP ∈ [0, STACK_DEPTH] (R26), and the slots that do not exist stay 0. -/
def StackInv (s : State) : Prop := s.sp ≤ s.cfg.depth ∧ ∀ k, s.cfg.depth ≤ k → s.slot k = 0

/-- RAM is in its canonical form, and the ROM image fits (R46). -/
def RamInv (s : State) : Prop := Memory.wf s.cfg s.ram = true ∧ s.cfg.romFits = true

/-- The fault record and the run state agree (R36, R41): no record while RUNNING or PAUSED; in FAULT one of the codes 1
to 4 with PC at the faulting instruction; an out-of-range address for codes 3 and 4 and 0 otherwise. -/
def RecordInv (s : State) : Prop :=
  ((s.runState = .running ∨ s.runState = .paused) → s.faultCode = .none ∧ s.faultPc = 0) ∧
  (s.runState = .fault → s.faultCode ≠ .none ∧ s.faultCode ≠ .romLoad ∧ s.faultPc = s.pc) ∧
  ((s.faultCode = .fetchAddress ∨ s.faultCode = .dataAddress) → 0x1000 ≤ s.faultAddr.toNat ∧
    s.faultAddr.toNat ≤ 0xFFFF + 15) ∧
  (¬ (s.faultCode = .fetchAddress ∨ s.faultCode = .dataAddress) → s.faultAddr = 0)

/-- A frame is in progress only while RUNNING, with at most IPF slots left (R128, R131). -/
def FrameInv (s : State) : Prop :=
  (s.runState ≠ .running → s.frame = .awaitTick) ∧ ∀ n, s.frame = .slots n → n ≤ s.cfg.ipf

/-- kw_phase = HELD only while the instruction at PC is an FX0A (R41, item 4). -/
def KeyWaitInv (s : State) : Prop :=
  s.kwPhase = .held → ∃ w x, s.fetch = .ok w ∧ decode w = .ok (.ldVxK x)

/-! ### The frame as one function (R130) -/

/-- "repeat IPF times: step(); if run_state = FAULT: return" (R130 to R132). -/
def runSlots : Nat → State → Result
  | 0, s => .next s
  | left + 1, s =>
    match (s.takeSlot left).runInstr with
    | .next t => if t.runState = .fault then .next t else runSlots left t
    | r => r

/-- `frame(E)` of R130, `E` being the event list that the queue holds for this tick. -/
def frameOf (s : State) : Result :=
  if s.runState = .quit then .next s.takeTick
  else if (s.takeTick.poll (s.inbox.headD [])).runState ≠ .running then
    .next ((s.takeTick.poll (s.inbox.headD [])).setFrame .awaitTick)
  else
    match runSlots (s.takeTick.poll (s.inbox.headD [])).cfg.ipf (s.takeTick.poll (s.inbox.headD [])) with
    | .next t => if t.runState = .fault then .next t else .next t.endFrame
    | r => r

end Sys2Proof.Machine
end

