-- ==== Sys2Proof/Certificates/Slice0/Obligations.lean ====
section
/-! DEFINITION. The statements for the provers. Each docstring names the rule of spec/ it formalises. Premises named
`RamInv`, `StackInv` are invariants of the model, stated for every step by `StepKeepsInvariants`. -/

open Sys2Proof Sys2Proof.Machine

/-! ### Encoding -/

/-- R70, one word a group written out from its pattern: 00E0, 00EE, 0123, 1ABC, 5AB0, 8EF4, 812E, D125, E39E, FF65, and
the unassigned 5AB1, 8128, 9AB3, E3A2, F0E0 of spec/95_test_vectors.md. -/
def Obligations.SampleWordsDecode : Prop :=
  decode 0x00E0#16 = .ok .cls ∧ decode 0x00EE#16 = .ok .ret ∧ decode 0x0123#16 = .ok (.sys 0x123) ∧
  decode 0x1ABC#16 = .ok (.jp 0xABC) ∧ decode 0x5AB0#16 = .ok (.seVxVy 0xA 0xB) ∧
  decode 0x8EF4#16 = .ok (.addVxVy 0xE 0xF) ∧ decode 0x812E#16 = .ok (.shlVxVy 1 2) ∧
  decode 0xD125#16 = .ok (.drwVxVyN 1 2 5) ∧ decode 0xE39E#16 = .ok (.skpVx 3) ∧
  decode 0xFF65#16 = .ok (.ldVxMem 0xF) ∧
  decode 0x5AB1#16 = .error .unassigned5 ∧ decode 0x8128#16 = .error .unassigned8 ∧
  decode 0x9AB3#16 = .error .unassigned9 ∧ decode 0xE3A2#16 = .error .unassignedE ∧
  decode 0xF0E0#16 = .error .unassignedF

/-- R60, R61: no bit of an encoding is dropped. -/
def Obligations.DecodeEncodeRoundTrip : Prop := ∀ i : Instr, i.wf = true → decode (encode i) = .ok i

/-- R70: every word that decodes is the one word of its instruction. -/
def Obligations.EncodeDecodeRoundTrip : Prop := ∀ (w : Word) (i : Instr), decode w = .ok i → encode i = w ∧ i.wf = true

/-- R70: "A word selects the first row whose mask and match fit it." The dispatch of R64 to R69 selects that row, and
refuses exactly the words that fit none. -/
def Obligations.DecodeFollowsOpcodeMap : Prop :=
  ∀ w : Word, (∀ i, decode w = .ok i → opcodeRow w = some i.rowIndex) ∧ (∀ r, decode w = .error r → opcodeRow w = none)

/-- R66 to R69, R73: the unassigned words, by their nibbles. -/
def Obligations.UnassignedWordsExactly : Prop :=
  ∀ w : Word, (∃ r, decode w = .error r) ↔
    ((w.toNat / 4096 = 5 ∨ w.toNat / 4096 = 9) ∧ w.toNat % 16 ≠ 0) ∨
    (w.toNat / 4096 = 8 ∧ w.toNat % 16 ∈ [0x8, 0x9, 0xA, 0xB, 0xC, 0xD, 0xF]) ∨
    (w.toNat / 4096 = 0xE ∧ w.toNat % 256 ∉ [0x9E, 0xA1]) ∨
    (w.toNat / 4096 = 0xF ∧ w.toNat % 256 ∉ [0x07, 0x0A, 0x15, 0x18, 0x1E, 0x29, 0x33, 0x55, 0x65])

/-! ### The instruction step -/

/-- R63: in a RUNNING frame with a slot left, where the two bytes at PC decode to `i`, the step is `exec i` on the state
with that slot taken and the output ports idle; `exec` itself advances PC. -/
def Obligations.StepRunsDecodedInstruction : Prop :=
  ∀ (s : State) (left hi lo : Nat) (i : Instr),
    s.runState = .running → s.frame = .slots (left + 1) →
    addr s.cfg.oobPolicy s.pc.toNat = .ok hi → addr s.cfg.oobPolicy (s.pc.toNat + 1) = .ok lo →
    decode (wordOfBytes (s.ramByte hi) (s.ramByte lo)) = .ok i →
    step s = exec i { s with frame := .slots left, out := none }

/-- R74: an unassigned word only advances PC and emits its event. -/
def Obligations.UnassignedWordIsNoOp : Prop :=
  ∀ (s : State) (left : Nat) (w : Word) (r : Reject),
    s.runState = .running → s.frame = .slots (left + 1) → s.fetch = .ok w → decode w = .error r →
    step s = .next { s with pc := s.pc + 2, frame := .slots left, out := some (.unknownOpcode s.pc w) }

/-- R73 "No encoding traps", R121: every step of every state answers a next state. -/
def Obligations.StepAlwaysAnswers : Prop := ∀ s : State, ∃ t, step s = .next t

/-- R58: two bytes stored by FX55 where the next instruction lies are the very next opcode fetched. -/
def Obligations.StoredBytesAreFetched : Prop :=
  ∀ s : State, RamInv s → s.i = s.pc + 2 → s.pc.toNat + 3 ≤ 0xFFF →
    ∃ t, exec (.ldMemVx 1) s = .next t ∧ t.fetch = .ok (s.getV 0 ++ s.getV 1)

/-- R160 item 3, R80: at a stop idiom an instruction step changes nothing but the count of slots left in the frame (and
idles the output ports). -/
def Obligations.StopIdiomStays : Prop :=
  ∀ (s : State) (left : Nat), s.runState = .running → s.frame = .slots (left + 1) → s.AtStopIdiom →
    step s = .next { s with frame := .slots left, out := none }

/-- R137, R134, R155: no instruction step polls: the keypad latch and the tone flag stay. R131, R132: it uses one slot of
the frame's budget, or ends in FAULT. That the slots are counted in `frame` and that the events still to come stand in
`inbox`, which stays, is the model's choice (notes/assumptions/4.md and 6.md). -/
def Obligations.InstructionStepsDoNotPoll : Prop :=
  ∀ (s t : State) (left : Nat), s.runState = .running → s.frame = .slots (left + 1) → step s = .next t →
    t.key = s.key ∧ t.toneActive = s.toneActive ∧ t.inbox = s.inbox ∧
      (t.frame = .slots left ∨ t.runState = .fault)

/-! ### System and flow -/

/-- R77 -/
def Obligations.ClsClearsFramebuffer : Prop :=
  ∀ s : State, Codes .cls 0x00E0 ∧ ∃ t, exec .cls s = .next t ∧ t.pc = s.pc + 2 ∧
    (∀ x y, t.fb.pixel x y = false) ∧ SameExcept [.pc, .fb] s t

/-- R78: the popped slot keeps its value (`.stack` is unchanged); with an empty stack the fault of R119 is taken. -/
def Obligations.RetPopsReturnAddress : Prop :=
  ∀ s : State, Codes .ret 0x00EE ∧
    (s.sp ≠ 0 → ∃ t, exec .ret s = .next t ∧ t.sp = s.sp - 1 ∧ t.pc = s.slot (s.sp - 1) ∧ SameExcept [.pc, .sp] s t) ∧
    (s.sp = 0 → exec .ret s = .next (s.raiseFault .stackUnderflow 0))

/-- R79, R80: 0NNN only advances PC; 1NNN sets it. -/
def Obligations.SysAndJump : Prop :=
  ∀ (nnn : BitVec 12) (s : State),
    (Codes (.sys nnn) nnn.toNat ∧ ((Instr.sys nnn).wf = true ↔ nnn.toNat ≠ 0x0E0 ∧ nnn.toNat ≠ 0x0EE) ∧
      ∃ t, exec (.sys nnn) s = .next t ∧ t.pc = s.pc + 2 ∧ SameExcept [.pc] s t) ∧
    (Codes (.jp nnn) (0x1000 + nnn.toNat) ∧
      ∃ t, exec (.jp nnn) s = .next t ∧ t.pc.toNat = nnn.toNat ∧ SameExcept [.pc] s t)

/-- R81: with a full stack the fault of R119 is taken. -/
def Obligations.CallPushesReturnAddress : Prop :=
  ∀ (nnn : BitVec 12) (s : State), Codes (.call nnn) (0x2000 + nnn.toNat) ∧
    (s.sp < s.cfg.depth → ∃ t, exec (.call nnn) s = .next t ∧ t.slot s.sp = s.pc + 2 ∧
      (∀ k, k ≠ s.sp → t.slot k = s.slot k) ∧ t.sp = s.sp + 1 ∧ t.pc.toNat = nnn.toNat ∧
      SameExcept [.pc, .sp, .stack] s t) ∧
    (s.sp = s.cfg.depth → exec (.call nnn) s = .next (s.raiseFault .stackOverflow 0))

/-- R82: V[0] + NNN, at most 0x10FE, so there is no wrap. -/
def Obligations.JumpWithOffset : Prop :=
  ∀ (nnn : BitVec 12) (s : State), Codes (.jpV0Nnn nnn) (0xB000 + nnn.toNat) ∧
    ∃ t, exec (.jpV0Nnn nnn) s = .next t ∧ t.pc.toNat = (s.getV 0).toNat + nnn.toNat ∧ SameExcept [.pc] s t

/-! ### Skips -/

/-- R83, R84: skip on an immediate. -/
def Obligations.SkipsOnImmediate : Prop :=
  ∀ (x : Reg) (nn : Byte) (s : State),
    (Codes (.seVxNn x nn) (0x3000 + 256 * x.val + nn.toNat) ∧
      ∃ t, exec (.seVxNn x nn) s = .next t ∧ t.pc = (if s.getV x = nn then s.pc + 4 else s.pc + 2) ∧
        SameExcept [.pc] s t) ∧
    (Codes (.sneVxNn x nn) (0x4000 + 256 * x.val + nn.toNat) ∧
      ∃ t, exec (.sneVxNn x nn) s = .next t ∧ t.pc = (if s.getV x = nn then s.pc + 2 else s.pc + 4) ∧
        SameExcept [.pc] s t)

/-- R85, R86: skip on two registers. -/
def Obligations.SkipsOnRegisters : Prop :=
  ∀ (x y : Reg) (s : State),
    (Codes (.seVxVy x y) (0x5000 + 256 * x.val + 16 * y.val) ∧
      ∃ t, exec (.seVxVy x y) s = .next t ∧ t.pc = (if s.getV x = s.getV y then s.pc + 4 else s.pc + 2) ∧
        SameExcept [.pc] s t) ∧
    (Codes (.sneVxVy x y) (0x9000 + 256 * x.val + 16 * y.val) ∧
      ∃ t, exec (.sneVxVy x y) s = .next t ∧ t.pc = (if s.getV x = s.getV y then s.pc + 2 else s.pc + 4) ∧
        SameExcept [.pc] s t)

/-- R87, R88: skip on the key that the low nibble of V[X] names. -/
def Obligations.SkipsOnKey : Prop :=
  ∀ (x : Reg) (s : State),
    (Codes (.skpVx x) (0xE09E + 256 * x.val) ∧
      ∃ t, exec (.skpVx x) s = .next t ∧
        t.pc = (if s.key.getLsbD ((s.getV x).toNat % 16) = true then s.pc + 4 else s.pc + 2) ∧ SameExcept [.pc] s t) ∧
    (Codes (.sknpVx x) (0xE0A1 + 256 * x.val) ∧
      ∃ t, exec (.sknpVx x) s = .next t ∧
        t.pc = (if s.key.getLsbD ((s.getV x).toNat % 16) = true then s.pc + 2 else s.pc + 4) ∧ SameExcept [.pc] s t)

/-! ### Loads, ALU and random -/

/-- R89, R90, R91: 6XNN, 7XNN (no flag: VF changes only when X = F, and then as data) and ANNN. -/
def Obligations.ImmediateLoads : Prop :=
  ∀ (x : Reg) (nn : Byte) (nnn : BitVec 12) (s : State),
    (Codes (.ldVxNn x nn) (0x6000 + 256 * x.val + nn.toNat) ∧
      ∃ t, exec (.ldVxNn x nn) s = .next t ∧ t.pc = s.pc + 2 ∧ t.getV x = nn ∧ SameRegsExcept [x] s t ∧
        SameExcept [.pc, .v] s t) ∧
    (Codes (.addVxNn x nn) (0x7000 + 256 * x.val + nn.toNat) ∧
      ∃ t, exec (.addVxNn x nn) s = .next t ∧ t.pc = s.pc + 2 ∧
        (t.getV x).toNat = ((s.getV x).toNat + nn.toNat) % 256 ∧ SameRegsExcept [x] s t ∧ SameExcept [.pc, .v] s t) ∧
    (Codes (.ldINnn nnn) (0xA000 + nnn.toNat) ∧
      ∃ t, exec (.ldINnn nnn) s = .next t ∧ t.pc = s.pc + 2 ∧ t.i.toNat = nnn.toNat ∧ SameExcept [.pc, .i] s t)

/-- R92 -/
def Obligations.RegisterCopy : Prop :=
  ∀ (x y : Reg) (s : State), Codes (.ldVxVy x y) (0x8000 + 256 * x.val + 16 * y.val) ∧
    ∃ t, exec (.ldVxVy x y) s = .next t ∧ t.pc = s.pc + 2 ∧ t.getV x = s.getV y ∧ SameRegsExcept [x] s t ∧
      SameExcept [.pc, .v] s t

/-- R93, R94, R95: with QUIRK = CHIP-8 VF ends as 0, even where X = F; otherwise VF is written only as V[X]. -/
def Obligations.LogicAndFlagReset : Prop :=
  ∀ (x y : Reg) (s : State) (i : Instr) (n : Nat) (r : Byte),
    (i, n, r) ∈ [(.orVxVy x y, 0x8001, s.getV x ||| s.getV y), (.andVxVy x y, 0x8002, s.getV x &&& s.getV y),
      (.xorVxVy x y, 0x8003, s.getV x ^^^ s.getV y)] →
    Codes i (n + 256 * x.val + 16 * y.val) ∧
    ∃ t, exec i s = .next t ∧ t.pc = s.pc + 2 ∧
      (s.cfg.quirk = .chip8 → t.getV 0xF = 0 ∧ (x ≠ 0xF → t.getV x = r) ∧ SameRegsExcept [x, 0xF] s t) ∧
      (s.cfg.quirk ≠ .chip8 → t.getV x = r ∧ SameRegsExcept [x] s t) ∧
      SameExcept [.pc, .v] s t

/-- R96: VF is the carry out of bit 7, also where X = F. -/
def Obligations.AddWithCarry : Prop :=
  ∀ (x y : Reg) (s : State), Codes (.addVxVy x y) (0x8004 + 256 * x.val + 16 * y.val) ∧
    ∃ t, exec (.addVxVy x y) s = .next t ∧ t.pc = s.pc + 2 ∧
      (x ≠ 0xF → (t.getV x).toNat = ((s.getV x).toNat + (s.getV y).toNat) % 256) ∧
      (t.getV 0xF).toNat = (if (s.getV x).toNat + (s.getV y).toNat > 255 then 1 else 0) ∧
      SameRegsExcept [x, 0xF] s t ∧ SameExcept [.pc, .v] s t

/-- R97, R99: the difference modulo 256; VF is 1 exactly when no borrow occurred, equality included. -/
def Obligations.SubtractWithNoBorrow : Prop :=
  ∀ (x y : Reg) (s : State) (i : Instr) (n a b : Nat),
    (i, n, a, b) ∈ [(.subVxVy x y, 0x8005, (s.getV x).toNat, (s.getV y).toNat),
      (.subnVxVy x y, 0x8007, (s.getV y).toNat, (s.getV x).toNat)] →
    Codes i (n + 256 * x.val + 16 * y.val) ∧
    ∃ t, exec i s = .next t ∧ t.pc = s.pc + 2 ∧
      (x ≠ 0xF → (t.getV x).toNat = (256 + a - b) % 256) ∧
      (t.getV 0xF).toNat = (if a ≥ b then 1 else 0) ∧
      SameRegsExcept [x, 0xF] s t ∧ SameExcept [.pc, .v] s t

/-- R98, R100: the operand is V[Y] under CHIP-8 and V[X] otherwise; VF is the bit shifted out, also where X = F. -/
def Obligations.ShiftsByOne : Prop :=
  ∀ (x y : Reg) (s : State) (a : Nat), a = (if s.cfg.quirk = .chip8 then s.getV y else s.getV x).toNat →
    (Codes (.shrVxVy x y) (0x8006 + 256 * x.val + 16 * y.val) ∧
      ∃ t, exec (.shrVxVy x y) s = .next t ∧ t.pc = s.pc + 2 ∧ (x ≠ 0xF → (t.getV x).toNat = a / 2) ∧
        (t.getV 0xF).toNat = a % 2 ∧ SameRegsExcept [x, 0xF] s t ∧ SameExcept [.pc, .v] s t) ∧
    (Codes (.shlVxVy x y) (0x800E + 256 * x.val + 16 * y.val) ∧
      ∃ t, exec (.shlVxVy x y) s = .next t ∧ t.pc = s.pc + 2 ∧ (x ≠ 0xF → (t.getV x).toNat = a * 2 % 256) ∧
        (t.getV 0xF).toNat = a / 128 ∧ SameRegsExcept [x, 0xF] s t ∧ SameExcept [.pc, .v] s t)

/-- R101: the next draw, which is free, under the mask NN. That a draw is `Config.randByte` at the count `draws`, which
goes up by one, is the model's choice (notes/assumptions/5.md). -/
def Obligations.RandomUnderMask : Prop :=
  ∀ (x : Reg) (nn : Byte) (s : State), Codes (.rndVxNn x nn) (0xC000 + 256 * x.val + nn.toNat) ∧
    ∃ t, exec (.rndVxNn x nn) s = .next t ∧ t.pc = s.pc + 2 ∧ t.getV x = Config.randByte s.draws &&& nn ∧
      t.getV x &&& ~~~nn = 0 ∧ t.draws = s.draws + 1 ∧ SameRegsExcept [x] s t ∧ SameExcept [.pc, .v, .draws] s t

/-! ### The sprite blitter -/

/-- R103, R106: where no fetched row faults, every pixel is XORed with its sprite bit, and VF ends as 1 exactly when a
1 bit met a lit pixel; coordinates are those of the state before, also where X or Y is F. A fetched row above 0xFFF
faults, and nothing is drawn. -/
def Obligations.SpriteIsXoredIn : Prop :=
  ∀ (x y : Reg) (n : BitVec 4) (s : State),
    Codes (.drwVxVyN x y n) (0xD000 + 256 * x.val + 16 * y.val + n.toNat) ∧
    (s.CanAccess (s.spriteRows y n) →
      ∃ t, exec (.drwVxVyN x y n) s = .next t ∧ t.pc = s.pc + 2 ∧
        (∀ px py, px < 64 → py < 32 → t.fb.pixel px py = (s.fb.pixel px py ^^ s.spriteBit x y n px py)) ∧
        ((∃ px py, px < 64 ∧ py < 32 ∧ s.spriteBit x y n px py = true ∧ s.fb.pixel px py = true) → t.getV 0xF = 1) ∧
        ((∀ px py, px < 64 → py < 32 → s.spriteBit x y n px py = true → s.fb.pixel px py = false) → t.getV 0xF = 0) ∧
        SameRegsExcept [0xF] s t ∧ SameExcept [.pc, .v, .fb] s t) ∧
    (s.cfg.oobPolicy = .fault → 0 < s.spriteRows y n → s.i.toNat + s.spriteRows y n - 1 > 0xFFF →
      exec (.drwVxVyN x y n) s = .next (s.raiseFault .dataAddress (max s.i.toNat 0x1000)))

/-- R104: only pixels of the drawn region change, and, where no row faults, a pixel changes iff its sprite bit is 1. -/
def Obligations.SpriteChangesOnlyItsRegion : Prop :=
  ∀ (x y : Reg) (n : BitVec 4) (s t : State) (px py : Nat),
    exec (.drwVxVyN x y n) s = .next t → px < 64 → py < 32 →
    (t.fb.pixel px py ≠ s.fb.pixel px py →
      (s.getV x).toNat % 64 ≤ px ∧ px < min ((s.getV x).toNat % 64 + 8) 64 ∧
      (s.getV y).toNat % 32 ≤ py ∧ py < min ((s.getV y).toNat % 32 + n.toNat) 32) ∧
    (s.CanAccess (s.spriteRows y n) →
      (t.fb.pixel px py ≠ s.fb.pixel px py ↔ s.spriteBit x y n px py = true))

/-- R105: after a DXYN that does not fault, VF = 1 iff some lit pixel lay under a 1 sprite bit; equivalently, iff the
instruction turned some lit pixel off. Otherwise VF = 0. -/
def Obligations.CollisionFlagLaw : Prop :=
  ∀ (x y : Reg) (n : BitVec 4) (s t : State), s.CanAccess (s.spriteRows y n) → exec (.drwVxVyN x y n) s = .next t →
    (t.getV 0xF = 1 ↔ ∃ px py, px < 64 ∧ py < 32 ∧ s.spriteBit x y n px py = true ∧ s.fb.pixel px py = true) ∧
    (t.getV 0xF = 1 ↔ ∃ px py, px < 64 ∧ py < 32 ∧ s.fb.pixel px py = true ∧ t.fb.pixel px py = false) ∧
    (t.getV 0xF = 1 ∨ t.getV 0xF = 0)

/-- R107: a DXYN repeated with the same coordinates, count, I and sprite bytes restores the framebuffer, and reports VF =
1 iff some pixel under a 1 sprite bit was 0 before the first draw; on a clear framebuffer, iff the sprite has a 1 bit
inside the drawn region. `u` is any state in which the second DXYN finds what the first one left. -/
def Obligations.SpriteInvolution : Prop :=
  ∀ (x y : Reg) (n : BitVec 4) (s t u : State), s.CanAccess (s.spriteRows y n) →
    exec (.drwVxVyN x y n) s = .next t →
    u.cfg = s.cfg → u.getV x = s.getV x → u.getV y = s.getV y → u.i = s.i → (∀ a, u.ramByte a = s.ramByte a) →
    u.fb = t.fb →
    ∃ w, exec (.drwVxVyN x y n) u = .next w ∧ w.fb = s.fb ∧
      (w.getV 0xF = 1 ↔ ∃ px py, px < 64 ∧ py < 32 ∧ s.spriteBit x y n px py = true ∧ s.fb.pixel px py = false ∧
        t.fb.pixel px py = true) ∧
      ((∀ px py, px < 64 → py < 32 → s.fb.pixel px py = false) →
        (w.getV 0xF = 1 ↔ ∃ px py, px < 64 ∧ py < 32 ∧ s.spriteBit x y n px py = true))

/-! ### Group F -/

/-- R108, R109, R110: the timer transfers; the tone flag stays (it is in `.host`). -/
def Obligations.TimerTransfers : Prop :=
  ∀ (x : Reg) (s : State),
    (Codes (.ldVxDt x) (0xF007 + 256 * x.val) ∧
      ∃ t, exec (.ldVxDt x) s = .next t ∧ t.pc = s.pc + 2 ∧ t.getV x = s.dt ∧ SameRegsExcept [x] s t ∧
        SameExcept [.pc, .v] s t) ∧
    (Codes (.ldDtVx x) (0xF015 + 256 * x.val) ∧
      ∃ t, exec (.ldDtVx x) s = .next t ∧ t.pc = s.pc + 2 ∧ t.dt = s.getV x ∧ SameExcept [.pc, .dt] s t) ∧
    (Codes (.ldStVx x) (0xF018 + 256 * x.val) ∧
      ∃ t, exec (.ldStVx x) s = .next t ∧ t.pc = s.pc + 2 ∧ t.st = s.getV x ∧ SameExcept [.pc, .st] s t)

/-- R111, R113: I plus V[X] modulo 2^16 with no flag, and the glyph address of the low nibble of V[X]. -/
def Obligations.IndexTransfers : Prop :=
  ∀ (x : Reg) (s : State),
    (Codes (.addIVx x) (0xF01E + 256 * x.val) ∧
      ∃ t, exec (.addIVx x) s = .next t ∧ t.pc = s.pc + 2 ∧
        t.i.toNat = (s.i.toNat + (s.getV x).toNat) % 2 ^ 16 ∧ SameExcept [.pc, .i] s t) ∧
    (Codes (.ldFVx x) (0xF029 + 256 * x.val) ∧
      ∃ t, exec (.ldFVx x) s = .next t ∧ t.pc = s.pc + 2 ∧ t.i.toNat = (s.getV x).toNat % 16 * 5 ∧
        SameExcept [.pc, .i] s t)

/-- R112: phase 1 repeats while no key is held and captures the lowest held key; phase 2 repeats while that key is held,
and on its release loads its index and proceeds. -/
def Obligations.KeyWait : Prop :=
  ∀ (x : Reg) (s : State), Codes (.ldVxK x) (0xF00A + 256 * x.val) ∧
    (s.kwPhase = .idle → (∀ k : KeyIndex, s.key.getLsbD k = false) →
      ∃ t, exec (.ldVxK x) s = .next t ∧ SameExcept [] s t) ∧
    (s.kwPhase = .idle → ∀ k : KeyIndex, s.key.getLsbD k = true → (∀ j : KeyIndex, j < k → s.key.getLsbD j = false) →
      ∃ t, exec (.ldVxK x) s = .next t ∧ t.kwPhase = .held ∧ t.kwKey = k ∧ SameExcept [.kw] s t) ∧
    (s.kwPhase = .held → s.key.getLsbD s.kwKey = true →
      ∃ t, exec (.ldVxK x) s = .next t ∧ SameExcept [] s t) ∧
    (s.kwPhase = .held → s.key.getLsbD s.kwKey = false →
      ∃ t, exec (.ldVxK x) s = .next t ∧ t.pc = s.pc + 2 ∧ (t.getV x).toNat = s.kwKey.val ∧ t.kwPhase = .idle ∧
        SameRegsExcept [x] s t ∧ SameExcept [.pc, .v, .kw] s t)

/-- R114: the three digits at I, I + 1 and I + 2, the addresses being those that the meaning computes (`dataAddrs`);
every other byte stays. The fault side is `AddressFaults`. -/
def Obligations.BcdStoresDigits : Prop :=
  ∀ (x : Reg) (s : State), Codes (.ldBVx x) (0xF033 + 256 * x.val) ∧
    (RamInv s → s.CanAccess 3 →
      s.dataAddrs 3 = .ok (s.dataIndexes 3) ∧
      ∃ t, exec (.ldBVx x) s = .next t ∧ t.pc = s.pc + 2 ∧
        (t.ramByte (s.i.toNat % 0x1000)).toNat = (s.getV x).toNat / 100 ∧
        (t.ramByte ((s.i.toNat + 1) % 0x1000)).toNat = (s.getV x).toNat / 10 % 10 ∧
        (t.ramByte ((s.i.toNat + 2) % 0x1000)).toNat = (s.getV x).toNat % 10 ∧
        (∀ a, a ∉ s.dataIndexes 3 → t.ramByte a = s.ramByte a) ∧ SameExcept [.pc, .ram] s t) ∧
    (s.cfg.oobPolicy = .fault → s.i.toNat + 2 > 0xFFF →
      exec (.ldBVx x) s = .next (s.raiseFault .dataAddress (max s.i.toNat 0x1000)))

/-- R115: V[0] to V[X] at I0, I0 + 1, …; I ends at I0 + X + 1 under CHIP-8 and stays otherwise. -/
def Obligations.StoreRegisters : Prop :=
  ∀ (x : Reg) (s : State), Codes (.ldMemVx x) (0xF055 + 256 * x.val) ∧
    (RamInv s → s.CanAccess (x.val + 1) →
      s.dataAddrs (x.val + 1) = .ok (s.dataIndexes (x.val + 1)) ∧
      ∃ t, exec (.ldMemVx x) s = .next t ∧ t.pc = s.pc + 2 ∧
        (∀ k : Reg, k ≤ x → t.ramByte ((s.i.toNat + k.val) % 0x1000) = s.getV k) ∧
        (∀ a, a ∉ s.dataIndexes (x.val + 1) → t.ramByte a = s.ramByte a) ∧
        t.i.toNat = (if s.cfg.quirk = .chip8 then (s.i.toNat + x.val + 1) % 2 ^ 16 else s.i.toNat) ∧
        SameExcept [.pc, .i, .ram] s t) ∧
    (s.cfg.oobPolicy = .fault → s.i.toNat + x.val > 0xFFF →
      exec (.ldMemVx x) s = .next (s.raiseFault .dataAddress (max s.i.toNat 0x1000)))

/-- R116: V[0] to V[X] from I0, I0 + 1, …; registers above X and all of RAM stay. -/
def Obligations.LoadRegisters : Prop :=
  ∀ (x : Reg) (s : State), Codes (.ldVxMem x) (0xF065 + 256 * x.val) ∧
    (s.CanAccess (x.val + 1) →
      ∃ t, exec (.ldVxMem x) s = .next t ∧ t.pc = s.pc + 2 ∧
        (∀ k : Reg, t.getV k = if k ≤ x then s.ramByte ((s.i.toNat + k.val) % 0x1000) else s.getV k) ∧
        t.i.toNat = (if s.cfg.quirk = .chip8 then (s.i.toNat + x.val + 1) % 2 ^ 16 else s.i.toNat) ∧
        SameExcept [.pc, .v, .i] s t) ∧
    (s.cfg.oobPolicy = .fault → s.i.toNat + x.val > 0xFFF →
      exec (.ldVxMem x) s = .next (s.raiseFault .dataAddress (max s.i.toNat 0x1000)))

/-! ### Faults -/

/-- R118: a fetch above 0xFFF, and a data access above 0xFFF, with the lowest such address recorded; none under MASK.
R117, R132: the record names PC, the rest of the state stays, the rest of the frame is abandoned. That this is
`frame := .awaitTick`, and that an instruction step idles `out`, is the model's (notes/assumptions/12.md and 7.md). -/
def Obligations.AddressFaults : Prop :=
  (∀ (s : State) (left : Nat), s.runState = .running → s.frame = .slots (left + 1) → s.cfg.oobPolicy = .fault →
    s.pc.toNat + 1 > 0xFFF →
    step s = .next { s with runState := .fault, faultCode := .fetchAddress, faultPc := s.pc, frame := .awaitTick,
                            out := none,
                            faultAddr := BitVec.ofNat 17 (if s.pc.toNat > 0xFFF then s.pc.toNat else s.pc.toNat + 1) }) ∧
  (∀ (i : Instr) (s : State), s.cfg.oobPolicy = .fault → 0 < s.dataBytes i → s.i.toNat + s.dataBytes i - 1 > 0xFFF →
    exec i s = .next { s with runState := .fault, faultCode := .dataAddress, faultPc := s.pc, frame := .awaitTick,
                              faultAddr := BitVec.ofNat 17 (if s.i.toNat > 0xFFF then s.i.toNat else 0x1000) }) ∧
  (∀ s t : State, s.cfg.oobPolicy = .mask → step s = .next t →
    (t.faultCode = .fetchAddress ∨ t.faultCode = .dataAddress) → t.faultCode = s.faultCode)

/-- R119: the stack faults, with fault_addr 0. R117, R132: fault_pc is PC, the rest of the state stays, the rest of the
frame is abandoned, which in the model is `frame := .awaitTick` (notes/assumptions/12.md). -/
def Obligations.StackFaults : Prop :=
  (∀ (nnn : BitVec 12) (s : State), s.sp = s.cfg.depth →
    exec (.call nnn) s = .next { s with runState := .fault, faultCode := .stackOverflow, faultPc := s.pc,
                                        faultAddr := 0, frame := .awaitTick }) ∧
  (∀ s : State, s.sp = 0 →
    exec .ret s = .next { s with runState := .fault, faultCode := .stackUnderflow, faultPc := s.pc,
                                 faultAddr := 0, frame := .awaitTick })

/-- R14, R117, R132: a step that ends in FAULT leaves everything as it was before the fetch, PC included, but the fault
record and the run state; the rest of the frame is abandoned and nothing is rendered. -/
def Obligations.FaultsArePrecise : Prop :=
  ∀ s t : State, s.runState = .running → step s = .next t → t.runState = .fault →
    t = { s with runState := .fault, faultCode := t.faultCode, faultPc := s.pc, faultAddr := t.faultAddr,
                 frame := .awaitTick, out := none }

/-- R122: which fault an instruction can report. -/
def Obligations.FaultsOfEachInstruction : Prop :=
  ∀ (i : Instr) (s t : State), s.runState = .running → exec i s = .next t →
    (t.runState = .running ∧ t.faultCode = s.faultCode ∧ t.faultPc = s.faultPc ∧ t.faultAddr = s.faultAddr) ∨
    (t.runState = .fault ∧
      ((i = .ret ∧ t.faultCode = .stackUnderflow) ∨ ((∃ nnn, i = .call nnn) ∧ t.faultCode = .stackOverflow) ∨
        (0 < s.dataBytes i ∧ t.faultCode = .dataAddress ∧ t.faultAddr.toNat = max s.i.toNat 0x1000)))

/-! ### Whole-machine rules -/

/-- R18, R20, R24 to R32, R36 to R38: each piece of the block's state but PC, which every instruction writes, changes only
by the instructions that the spec names as its writers; run_state and the fault record only by those that can fault
(R122). The count of draws is the model's own (notes/assumptions/5.md). -/
def Obligations.EachRegisterHasItsWriters : Prop :=
  ∀ (i : Instr) (s t : State), exec i s = .next t →
    SameRegsExcept (s.writtenRegs i) s t ∧
    ((∀ nnn, i ≠ .call nnn) → t.stack = s.stack) ∧
    ((∀ nnn, i ≠ .call nnn) → i ≠ .ret → t.sp = s.sp) ∧
    ((∀ x, i ≠ .ldDtVx x) → t.dt = s.dt) ∧
    ((∀ x, i ≠ .ldStVx x) → t.st = s.st) ∧
    ((∀ x, i ≠ .ldBVx x) → (∀ x, i ≠ .ldMemVx x) → t.ram = s.ram) ∧
    (i ≠ .cls → (∀ x y n, i ≠ .drwVxVyN x y n) → t.fb = s.fb) ∧
    ((∀ nnn, i ≠ .ldINnn nnn) → (∀ x, i ≠ .addIVx x) → (∀ x, i ≠ .ldFVx x) → (∀ x, i ≠ .ldMemVx x) →
      (∀ x, i ≠ .ldVxMem x) → t.i = s.i) ∧
    ((∀ x, i ≠ .ldVxK x) → t.kwPhase = s.kwPhase ∧ t.kwKey = s.kwKey) ∧
    ((∀ x nn, i ≠ .rndVxNn x nn) → t.draws = s.draws) ∧
    ((∀ nnn, i ≠ .call nnn) → i ≠ .ret → s.dataBytes i = 0 → t.runState = s.runState ∧ t.faultCode = s.faultCode ∧
      t.faultPc = s.faultPc ∧ t.faultAddr = s.faultAddr) ∧
    t.cfg = s.cfg ∧ t.key = s.key ∧ t.toneActive = s.toneActive

/-- R9: QUIRK matters to seven instructions only, and SUPER-CHIP and XO-CHIP behave the same. -/
def Obligations.QuirkMattersToSeven : Prop :=
  (∀ (i : Instr) (s t : State) (q : Quirk), exec i s = .next t →
    (∀ x y, i ≠ .orVxVy x y) → (∀ x y, i ≠ .andVxVy x y) → (∀ x y, i ≠ .xorVxVy x y) →
    (∀ x y, i ≠ .shrVxVy x y) → (∀ x y, i ≠ .shlVxVy x y) → (∀ x, i ≠ .ldMemVx x) → (∀ x, i ≠ .ldVxMem x) →
    exec i { s with cfg := { s.cfg with quirk := q } } = .next { t with cfg := { t.cfg with quirk := q } }) ∧
  (∀ (i : Instr) (s t : State), s.cfg.quirk = .superChip → exec i s = .next t →
    exec i { s with cfg := { s.cfg with quirk := .xoChip } } = .next { t with cfg := { t.cfg with quirk := .xoChip } })

/-! ### Frames, run states and reset -/

/-- R130, R131, R132: from between frames, the single steps (one tick, at most IPF instruction steps, one end of frame)
compose to the frame of R130. -/
def Obligations.StepsMakeOneFrame : Prop :=
  ∀ s : State, s.frame = .awaitTick →
    ∃ k, 1 ≤ k ∧ k ≤ s.cfg.ipf + 2 ∧ ∃ t, frameOf s = .next t ∧ Sys2Proof.core.run k s = .next t ∧ t.frame = .awaitTick

/-- R133, R134, R136: the end of a RUNNING frame renders the framebuffer, counts both timers down to a sticky 0, and sets
the tone flag from the decremented ST; nothing else changes. -/
def Obligations.EndOfFrame : Prop :=
  ∀ s : State, s.runState = .running → s.frame = .slots 0 →
    ∃ t, step s = .next t ∧ t.out = some (.render s.fb) ∧ t.dt.toNat = s.dt.toNat - 1 ∧ t.st.toNat = s.st.toNat - 1 ∧
      t.toneActive = decide (0 < t.st.toNat) ∧
      t = { s with out := t.out, dt := t.dt, st := t.st, toneActive := t.toneActive, frame := .awaitTick }

/-- R137: what each event of a poll does, and that the poll applies them in arrival order until a QUIT. -/
def Obligations.PollAppliesEvents : Prop :=
  ∀ s : State, s.runState ≠ .quit →
    (∀ (k : KeyIndex) (down : Bool), ∃ key', s.poll [if down then .keyDown k else .keyUp k] = { s with key := key' } ∧
      ∀ j : KeyIndex, key'.getLsbD j = if j = k then down else s.key.getLsbD j) ∧
    s.poll [.pauseToggle] = { s with runState := match s.runState with
                                                | .running => .paused
                                                | .paused => .running
                                                | r => r } ∧
    s.poll [.reset] = s.hostReset ∧
    (∀ es, s.poll (.quit :: es) = { s with runState := .quit }) ∧
    (∀ es es', (s.poll es).runState ≠ .quit → s.poll (es ++ es') = (s.poll es).poll es') ∧
    s.poll [] = s

/-- R127: the run-state transitions by host events, by power-on, and by a fault; no other step changes run_state. -/
def Obligations.RunStateTransitions : Prop :=
  (∀ (s : State) (e : HostEvent), (s.applyEvent e).runState =
    match s.runState, e with
    | .quit, _ => .quit
    | .running, .pauseToggle => .paused
    | .paused, .pauseToggle => .running
    | .fault, .pauseToggle => .fault
    | _, .reset => .running
    | _, .quit => .quit
    | r, .keyDown _ => r
    | r, .keyUp _ => r) ∧
  (∀ (c : Config) (rom : List Byte), rom.length ≤ 3584 → (powerOn c (some rom)).runState = .running) ∧
  (∀ (c : Config) (image : Option (List Byte)), (∀ rom, image = some rom → 3584 < rom.length) →
    (powerOn c image).runState = .quit) ∧
  (∀ (s t : State) (n : Nat), s.runState = .running → s.frame = .slots n → step s = .next t →
    t.runState = .running ∨ t.runState = .fault) ∧
  (∀ (s t : State), (s.runState ≠ .running ∨ s.frame = .awaitTick) → (s.inbox = [] ∨ s.inbox.head? = some []) →
    step s = .next t → t.runState = s.runState)

/-- R128: in PAUSED and FAULT a step only polls: while no RESET comes, no instruction runs, nothing is rendered, and no
timer or tone flag changes; key events still reach the latch. -/
def Obligations.PausedAndFaultOnlyPoll : Prop :=
  ∀ s : State, (s.runState = .paused ∨ s.runState = .fault) → HostEvent.reset ∉ s.inbox.headD [] →
    ∃ t, step s = .next t ∧ SameExcept [.host] s t ∧ t.cfg = s.cfg ∧ t.toneActive = s.toneActive ∧ t.out = none ∧
      t.faultCode = s.faultCode ∧ t.faultPc = s.faultPc ∧ t.faultAddr = s.faultAddr ∧
      t.key = (s.poll (s.inbox.headD [])).key ∧ t.runState = (s.poll (s.inbox.headD [])).runState ∧
      t.inbox = s.inbox.tail

/-- R129: QUIT is terminal: a frame does nothing but discard its tick's events. -/
def Obligations.QuitIsTerminal : Prop :=
  ∀ s : State, s.runState = .quit → step s = .next { s with inbox := s.inbox.tail, out := none }

/-- R39, R147, R148: what reset leaves, at power-on and by the RESET event; in QUIT it is refused. -/
def Obligations.ResetLeaves : Prop :=
  (∀ (s t : State), (t = State.init s.cfg ∨ (s.runState ≠ .quit ∧ t = s.poll [.reset])) →
    (∀ x, t.getV x = 0) ∧ t.i = 0 ∧ t.pc = 0x200 ∧ t.sp = 0 ∧ (∀ k, t.slot k = 0) ∧ t.dt = 0 ∧ t.st = 0 ∧
    (∀ px py, t.fb.pixel px py = false) ∧ t.key = 0 ∧ t.kwPhase = .idle ∧ t.kwKey = 0 ∧ t.toneActive = false ∧
    t.runState = .running ∧ t.faultCode = .none ∧ t.faultPc = 0 ∧ t.faultAddr = 0 ∧ t.cfg = s.cfg ∧
    (∀ a (h : a < 80), t.ramByte a = s.cfg.font[a]) ∧
    (∀ a, 0x50 ≤ a → a < 0x200 → t.ramByte a = 0) ∧
    (∀ j (h : j < s.cfg.rom.length), 0x200 + j < 0x1000 → t.ramByte (0x200 + j) = s.cfg.rom[j]) ∧
    (∀ a, 0x200 + s.cfg.rom.length ≤ a → t.ramByte a = 0)) ∧
  (∀ s : State, s.runState = .quit → s.applyEvent .reset = s)

/-- R120, R150: power-on loads an image of at most 3584 bytes and is then as after reset; otherwise it ends in QUIT with
ROM_LOAD, fault_pc and fault_addr 0. -/
def Obligations.PowerOn : Prop :=
  (∀ (c : Config) (rom : List Byte), rom.length ≤ 3584 → powerOn c (some rom) = State.init { c with rom := rom }) ∧
  (∀ (c : Config) (image : Option (List Byte)), (∀ rom, image = some rom → 3584 < rom.length) →
    (powerOn c image).runState = .quit ∧ (powerOn c image).faultCode = .romLoad ∧ (powerOn c image).faultPc = 0 ∧
    (powerOn c image).faultAddr = 0)

/-- R151: two consecutive resets leave the same state as one. -/
def Obligations.ResetIsIdempotent : Prop :=
  ∀ s : State, s.poll [.reset, .reset] = s.poll [.reset]

/-- R150 item 3, R8, R153: the first step from reset is the first tick, which opens a frame of 8 slots; the first
instruction is fetched from 0x200. (That the model awaits a tick, with no event queued, is its own bookkeeping:
notes/assumptions/4.md and 6.md.) -/
def Obligations.FirstTickAfterReset : Prop :=
  step State.reset = .next { State.reset with frame := .slots 8 } ∧ State.reset.pc = 0x200

/-! ### Invariants -/

/-- R41, R26, R36, R46, R128: the invariants hold after reset, in every legal configuration. -/
def Obligations.ResetMeetsInvariants : Prop :=
  ∀ c : Config, c.romFits = true →
    StackInv (State.init c) ∧ RamInv (State.init c) ∧ RecordInv (State.init c) ∧ FrameInv (State.init c) ∧
    KeyWaitInv (State.init c)

/-- R41, R26, R36, R128: every step keeps SP in range, RAM in its canonical form, the fault record in agreement with the
run state, and a frame in progress only while RUNNING. -/
def Obligations.StepKeepsInvariants : Prop :=
  ∀ s t : State, StackInv s → RamInv s → RecordInv s → FrameInv s → step s = .next t →
    StackInv t ∧ RamInv t ∧ RecordInv t ∧ FrameInv t

/-- R41 item 4: kw_phase = HELD only while the instruction at PC is an FX0A; every step keeps this. -/
def Obligations.StepKeepsKeyWait : Prop :=
  ∀ s t : State, KeyWaitInv s → step s = .next t → KeyWaitInv t

/-- R37: no step writes the configuration. -/
def Obligations.StepKeepsConfig : Prop := ∀ s t : State, step s = .next t → t.cfg = s.cfg

/-- R29, R55: RAM in canonical form is determined by its bytes, so equal memories are equal data. -/
def Obligations.CanonicalRamIsUnique : Prop :=
  ∀ (c : Config) (m m' : Memory), Memory.wf c m = true → Memory.wf c m' = true →
    (∀ a, a < 0x1000 → Memory.read c m a = Memory.read c m' a) → m = m'

/-! ### The configuration -/

/-- R38, R8: the port refuses exactly the illegal values, and the fields read back what it delivered, IPF in its 32 bits.
That an IPF which does not fit them is refused is deduced (notes/assumptions/22.md). -/
def Obligations.ConfigurationPort : Prop :=
  ∀ (quirk : BitVec 2) (depth : BitVec 5) (oob : BitVec 1) (ips : Nat) (font : Vector Byte 80),
    (Config.ofPort quirk depth oob ips font = none ↔
      quirk = 3 ∨ (depth ≠ 12 ∧ depth ≠ 16) ∨ 2 ^ 32 ≤ ips / 60) ∧
    (∀ c, Config.ofPort quirk depth oob ips font = some c →
      c.quirk.bits = quirk ∧ c.stackDepth.bits = depth ∧ c.oobPolicy.bits = oob ∧ c.ipfBits.toNat = ips / 60 ∧
      c.ipf = ips / 60 ∧ c.depth = depth.toNat ∧ c.font = font)
end

