-- ==== Sys2Proof/Laws/State.lean ====
section
/-! SUPPORT. The fields after each update of the state: one lemma a field and update, true by rfl, so that no later
proof unfolds a record update. -/

namespace Sys2Proof.Machine

/-! ### setPc -/

@[simp] theorem State.setPc_cfg (s : State) (a : Word) : (s.setPc a).cfg = s.cfg := rfl
@[simp] theorem State.setPc_v (s : State) (a : Word) : (s.setPc a).v = s.v := rfl
@[simp] theorem State.setPc_i (s : State) (a : Word) : (s.setPc a).i = s.i := rfl
@[simp] theorem State.setPc_pc (s : State) (a : Word) : (s.setPc a).pc = a := rfl
@[simp] theorem State.setPc_sp (s : State) (a : Word) : (s.setPc a).sp = s.sp := rfl
@[simp] theorem State.setPc_stack (s : State) (a : Word) : (s.setPc a).stack = s.stack := rfl
@[simp] theorem State.setPc_dt (s : State) (a : Word) : (s.setPc a).dt = s.dt := rfl
@[simp] theorem State.setPc_st (s : State) (a : Word) : (s.setPc a).st = s.st := rfl
@[simp] theorem State.setPc_ram (s : State) (a : Word) : (s.setPc a).ram = s.ram := rfl
@[simp] theorem State.setPc_fb (s : State) (a : Word) : (s.setPc a).fb = s.fb := rfl
@[simp] theorem State.setPc_key (s : State) (a : Word) : (s.setPc a).key = s.key := rfl
@[simp] theorem State.setPc_kwPhase (s : State) (a : Word) : (s.setPc a).kwPhase = s.kwPhase := rfl
@[simp] theorem State.setPc_kwKey (s : State) (a : Word) : (s.setPc a).kwKey = s.kwKey := rfl
@[simp] theorem State.setPc_toneActive (s : State) (a : Word) : (s.setPc a).toneActive = s.toneActive := rfl
@[simp] theorem State.setPc_runState (s : State) (a : Word) : (s.setPc a).runState = s.runState := rfl
@[simp] theorem State.setPc_faultCode (s : State) (a : Word) : (s.setPc a).faultCode = s.faultCode := rfl
@[simp] theorem State.setPc_faultPc (s : State) (a : Word) : (s.setPc a).faultPc = s.faultPc := rfl
@[simp] theorem State.setPc_faultAddr (s : State) (a : Word) : (s.setPc a).faultAddr = s.faultAddr := rfl
@[simp] theorem State.setPc_frame (s : State) (a : Word) : (s.setPc a).frame = s.frame := rfl
@[simp] theorem State.setPc_inbox (s : State) (a : Word) : (s.setPc a).inbox = s.inbox := rfl
@[simp] theorem State.setPc_out (s : State) (a : Word) : (s.setPc a).out = s.out := rfl
@[simp] theorem State.setPc_draws (s : State) (a : Word) : (s.setPc a).draws = s.draws := rfl

/-! ### setI -/

@[simp] theorem State.setI_cfg (s : State) (a : Word) : (s.setI a).cfg = s.cfg := rfl
@[simp] theorem State.setI_v (s : State) (a : Word) : (s.setI a).v = s.v := rfl
@[simp] theorem State.setI_i (s : State) (a : Word) : (s.setI a).i = a := rfl
@[simp] theorem State.setI_pc (s : State) (a : Word) : (s.setI a).pc = s.pc := rfl
@[simp] theorem State.setI_sp (s : State) (a : Word) : (s.setI a).sp = s.sp := rfl
@[simp] theorem State.setI_stack (s : State) (a : Word) : (s.setI a).stack = s.stack := rfl
@[simp] theorem State.setI_dt (s : State) (a : Word) : (s.setI a).dt = s.dt := rfl
@[simp] theorem State.setI_st (s : State) (a : Word) : (s.setI a).st = s.st := rfl
@[simp] theorem State.setI_ram (s : State) (a : Word) : (s.setI a).ram = s.ram := rfl
@[simp] theorem State.setI_fb (s : State) (a : Word) : (s.setI a).fb = s.fb := rfl
@[simp] theorem State.setI_key (s : State) (a : Word) : (s.setI a).key = s.key := rfl
@[simp] theorem State.setI_kwPhase (s : State) (a : Word) : (s.setI a).kwPhase = s.kwPhase := rfl
@[simp] theorem State.setI_kwKey (s : State) (a : Word) : (s.setI a).kwKey = s.kwKey := rfl
@[simp] theorem State.setI_toneActive (s : State) (a : Word) : (s.setI a).toneActive = s.toneActive := rfl
@[simp] theorem State.setI_runState (s : State) (a : Word) : (s.setI a).runState = s.runState := rfl
@[simp] theorem State.setI_faultCode (s : State) (a : Word) : (s.setI a).faultCode = s.faultCode := rfl
@[simp] theorem State.setI_faultPc (s : State) (a : Word) : (s.setI a).faultPc = s.faultPc := rfl
@[simp] theorem State.setI_faultAddr (s : State) (a : Word) : (s.setI a).faultAddr = s.faultAddr := rfl
@[simp] theorem State.setI_frame (s : State) (a : Word) : (s.setI a).frame = s.frame := rfl
@[simp] theorem State.setI_inbox (s : State) (a : Word) : (s.setI a).inbox = s.inbox := rfl
@[simp] theorem State.setI_out (s : State) (a : Word) : (s.setI a).out = s.out := rfl
@[simp] theorem State.setI_draws (s : State) (a : Word) : (s.setI a).draws = s.draws := rfl

/-! ### setDt -/

@[simp] theorem State.setDt_cfg (s : State) (b : Byte) : (s.setDt b).cfg = s.cfg := rfl
@[simp] theorem State.setDt_v (s : State) (b : Byte) : (s.setDt b).v = s.v := rfl
@[simp] theorem State.setDt_i (s : State) (b : Byte) : (s.setDt b).i = s.i := rfl
@[simp] theorem State.setDt_pc (s : State) (b : Byte) : (s.setDt b).pc = s.pc := rfl
@[simp] theorem State.setDt_sp (s : State) (b : Byte) : (s.setDt b).sp = s.sp := rfl
@[simp] theorem State.setDt_stack (s : State) (b : Byte) : (s.setDt b).stack = s.stack := rfl
@[simp] theorem State.setDt_dt (s : State) (b : Byte) : (s.setDt b).dt = b := rfl
@[simp] theorem State.setDt_st (s : State) (b : Byte) : (s.setDt b).st = s.st := rfl
@[simp] theorem State.setDt_ram (s : State) (b : Byte) : (s.setDt b).ram = s.ram := rfl
@[simp] theorem State.setDt_fb (s : State) (b : Byte) : (s.setDt b).fb = s.fb := rfl
@[simp] theorem State.setDt_key (s : State) (b : Byte) : (s.setDt b).key = s.key := rfl
@[simp] theorem State.setDt_kwPhase (s : State) (b : Byte) : (s.setDt b).kwPhase = s.kwPhase := rfl
@[simp] theorem State.setDt_kwKey (s : State) (b : Byte) : (s.setDt b).kwKey = s.kwKey := rfl
@[simp] theorem State.setDt_toneActive (s : State) (b : Byte) : (s.setDt b).toneActive = s.toneActive := rfl
@[simp] theorem State.setDt_runState (s : State) (b : Byte) : (s.setDt b).runState = s.runState := rfl
@[simp] theorem State.setDt_faultCode (s : State) (b : Byte) : (s.setDt b).faultCode = s.faultCode := rfl
@[simp] theorem State.setDt_faultPc (s : State) (b : Byte) : (s.setDt b).faultPc = s.faultPc := rfl
@[simp] theorem State.setDt_faultAddr (s : State) (b : Byte) : (s.setDt b).faultAddr = s.faultAddr := rfl
@[simp] theorem State.setDt_frame (s : State) (b : Byte) : (s.setDt b).frame = s.frame := rfl
@[simp] theorem State.setDt_inbox (s : State) (b : Byte) : (s.setDt b).inbox = s.inbox := rfl
@[simp] theorem State.setDt_out (s : State) (b : Byte) : (s.setDt b).out = s.out := rfl
@[simp] theorem State.setDt_draws (s : State) (b : Byte) : (s.setDt b).draws = s.draws := rfl

/-! ### setSt -/

@[simp] theorem State.setSt_cfg (s : State) (b : Byte) : (s.setSt b).cfg = s.cfg := rfl
@[simp] theorem State.setSt_v (s : State) (b : Byte) : (s.setSt b).v = s.v := rfl
@[simp] theorem State.setSt_i (s : State) (b : Byte) : (s.setSt b).i = s.i := rfl
@[simp] theorem State.setSt_pc (s : State) (b : Byte) : (s.setSt b).pc = s.pc := rfl
@[simp] theorem State.setSt_sp (s : State) (b : Byte) : (s.setSt b).sp = s.sp := rfl
@[simp] theorem State.setSt_stack (s : State) (b : Byte) : (s.setSt b).stack = s.stack := rfl
@[simp] theorem State.setSt_dt (s : State) (b : Byte) : (s.setSt b).dt = s.dt := rfl
@[simp] theorem State.setSt_st (s : State) (b : Byte) : (s.setSt b).st = b := rfl
@[simp] theorem State.setSt_ram (s : State) (b : Byte) : (s.setSt b).ram = s.ram := rfl
@[simp] theorem State.setSt_fb (s : State) (b : Byte) : (s.setSt b).fb = s.fb := rfl
@[simp] theorem State.setSt_key (s : State) (b : Byte) : (s.setSt b).key = s.key := rfl
@[simp] theorem State.setSt_kwPhase (s : State) (b : Byte) : (s.setSt b).kwPhase = s.kwPhase := rfl
@[simp] theorem State.setSt_kwKey (s : State) (b : Byte) : (s.setSt b).kwKey = s.kwKey := rfl
@[simp] theorem State.setSt_toneActive (s : State) (b : Byte) : (s.setSt b).toneActive = s.toneActive := rfl
@[simp] theorem State.setSt_runState (s : State) (b : Byte) : (s.setSt b).runState = s.runState := rfl
@[simp] theorem State.setSt_faultCode (s : State) (b : Byte) : (s.setSt b).faultCode = s.faultCode := rfl
@[simp] theorem State.setSt_faultPc (s : State) (b : Byte) : (s.setSt b).faultPc = s.faultPc := rfl
@[simp] theorem State.setSt_faultAddr (s : State) (b : Byte) : (s.setSt b).faultAddr = s.faultAddr := rfl
@[simp] theorem State.setSt_frame (s : State) (b : Byte) : (s.setSt b).frame = s.frame := rfl
@[simp] theorem State.setSt_inbox (s : State) (b : Byte) : (s.setSt b).inbox = s.inbox := rfl
@[simp] theorem State.setSt_out (s : State) (b : Byte) : (s.setSt b).out = s.out := rfl
@[simp] theorem State.setSt_draws (s : State) (b : Byte) : (s.setSt b).draws = s.draws := rfl

/-! ### setRam -/

@[simp] theorem State.setRam_cfg (s : State) (m : Memory) : (s.setRam m).cfg = s.cfg := rfl
@[simp] theorem State.setRam_v (s : State) (m : Memory) : (s.setRam m).v = s.v := rfl
@[simp] theorem State.setRam_i (s : State) (m : Memory) : (s.setRam m).i = s.i := rfl
@[simp] theorem State.setRam_pc (s : State) (m : Memory) : (s.setRam m).pc = s.pc := rfl
@[simp] theorem State.setRam_sp (s : State) (m : Memory) : (s.setRam m).sp = s.sp := rfl
@[simp] theorem State.setRam_stack (s : State) (m : Memory) : (s.setRam m).stack = s.stack := rfl
@[simp] theorem State.setRam_dt (s : State) (m : Memory) : (s.setRam m).dt = s.dt := rfl
@[simp] theorem State.setRam_st (s : State) (m : Memory) : (s.setRam m).st = s.st := rfl
@[simp] theorem State.setRam_ram (s : State) (m : Memory) : (s.setRam m).ram = m := rfl
@[simp] theorem State.setRam_fb (s : State) (m : Memory) : (s.setRam m).fb = s.fb := rfl
@[simp] theorem State.setRam_key (s : State) (m : Memory) : (s.setRam m).key = s.key := rfl
@[simp] theorem State.setRam_kwPhase (s : State) (m : Memory) : (s.setRam m).kwPhase = s.kwPhase := rfl
@[simp] theorem State.setRam_kwKey (s : State) (m : Memory) : (s.setRam m).kwKey = s.kwKey := rfl
@[simp] theorem State.setRam_toneActive (s : State) (m : Memory) : (s.setRam m).toneActive = s.toneActive := rfl
@[simp] theorem State.setRam_runState (s : State) (m : Memory) : (s.setRam m).runState = s.runState := rfl
@[simp] theorem State.setRam_faultCode (s : State) (m : Memory) : (s.setRam m).faultCode = s.faultCode := rfl
@[simp] theorem State.setRam_faultPc (s : State) (m : Memory) : (s.setRam m).faultPc = s.faultPc := rfl
@[simp] theorem State.setRam_faultAddr (s : State) (m : Memory) : (s.setRam m).faultAddr = s.faultAddr := rfl
@[simp] theorem State.setRam_frame (s : State) (m : Memory) : (s.setRam m).frame = s.frame := rfl
@[simp] theorem State.setRam_inbox (s : State) (m : Memory) : (s.setRam m).inbox = s.inbox := rfl
@[simp] theorem State.setRam_out (s : State) (m : Memory) : (s.setRam m).out = s.out := rfl
@[simp] theorem State.setRam_draws (s : State) (m : Memory) : (s.setRam m).draws = s.draws := rfl

/-! ### setFb -/

@[simp] theorem State.setFb_cfg (s : State) (f : Framebuffer) : (s.setFb f).cfg = s.cfg := rfl
@[simp] theorem State.setFb_v (s : State) (f : Framebuffer) : (s.setFb f).v = s.v := rfl
@[simp] theorem State.setFb_i (s : State) (f : Framebuffer) : (s.setFb f).i = s.i := rfl
@[simp] theorem State.setFb_pc (s : State) (f : Framebuffer) : (s.setFb f).pc = s.pc := rfl
@[simp] theorem State.setFb_sp (s : State) (f : Framebuffer) : (s.setFb f).sp = s.sp := rfl
@[simp] theorem State.setFb_stack (s : State) (f : Framebuffer) : (s.setFb f).stack = s.stack := rfl
@[simp] theorem State.setFb_dt (s : State) (f : Framebuffer) : (s.setFb f).dt = s.dt := rfl
@[simp] theorem State.setFb_st (s : State) (f : Framebuffer) : (s.setFb f).st = s.st := rfl
@[simp] theorem State.setFb_ram (s : State) (f : Framebuffer) : (s.setFb f).ram = s.ram := rfl
@[simp] theorem State.setFb_fb (s : State) (f : Framebuffer) : (s.setFb f).fb = f := rfl
@[simp] theorem State.setFb_key (s : State) (f : Framebuffer) : (s.setFb f).key = s.key := rfl
@[simp] theorem State.setFb_kwPhase (s : State) (f : Framebuffer) : (s.setFb f).kwPhase = s.kwPhase := rfl
@[simp] theorem State.setFb_kwKey (s : State) (f : Framebuffer) : (s.setFb f).kwKey = s.kwKey := rfl
@[simp] theorem State.setFb_toneActive (s : State) (f : Framebuffer) : (s.setFb f).toneActive = s.toneActive := rfl
@[simp] theorem State.setFb_runState (s : State) (f : Framebuffer) : (s.setFb f).runState = s.runState := rfl
@[simp] theorem State.setFb_faultCode (s : State) (f : Framebuffer) : (s.setFb f).faultCode = s.faultCode := rfl
@[simp] theorem State.setFb_faultPc (s : State) (f : Framebuffer) : (s.setFb f).faultPc = s.faultPc := rfl
@[simp] theorem State.setFb_faultAddr (s : State) (f : Framebuffer) : (s.setFb f).faultAddr = s.faultAddr := rfl
@[simp] theorem State.setFb_frame (s : State) (f : Framebuffer) : (s.setFb f).frame = s.frame := rfl
@[simp] theorem State.setFb_inbox (s : State) (f : Framebuffer) : (s.setFb f).inbox = s.inbox := rfl
@[simp] theorem State.setFb_out (s : State) (f : Framebuffer) : (s.setFb f).out = s.out := rfl
@[simp] theorem State.setFb_draws (s : State) (f : Framebuffer) : (s.setFb f).draws = s.draws := rfl

/-! ### setKey -/

@[simp] theorem State.setKey_cfg (s : State) (k : BitVec 16) : (s.setKey k).cfg = s.cfg := rfl
@[simp] theorem State.setKey_v (s : State) (k : BitVec 16) : (s.setKey k).v = s.v := rfl
@[simp] theorem State.setKey_i (s : State) (k : BitVec 16) : (s.setKey k).i = s.i := rfl
@[simp] theorem State.setKey_pc (s : State) (k : BitVec 16) : (s.setKey k).pc = s.pc := rfl
@[simp] theorem State.setKey_sp (s : State) (k : BitVec 16) : (s.setKey k).sp = s.sp := rfl
@[simp] theorem State.setKey_stack (s : State) (k : BitVec 16) : (s.setKey k).stack = s.stack := rfl
@[simp] theorem State.setKey_dt (s : State) (k : BitVec 16) : (s.setKey k).dt = s.dt := rfl
@[simp] theorem State.setKey_st (s : State) (k : BitVec 16) : (s.setKey k).st = s.st := rfl
@[simp] theorem State.setKey_ram (s : State) (k : BitVec 16) : (s.setKey k).ram = s.ram := rfl
@[simp] theorem State.setKey_fb (s : State) (k : BitVec 16) : (s.setKey k).fb = s.fb := rfl
@[simp] theorem State.setKey_key (s : State) (k : BitVec 16) : (s.setKey k).key = k := rfl
@[simp] theorem State.setKey_kwPhase (s : State) (k : BitVec 16) : (s.setKey k).kwPhase = s.kwPhase := rfl
@[simp] theorem State.setKey_kwKey (s : State) (k : BitVec 16) : (s.setKey k).kwKey = s.kwKey := rfl
@[simp] theorem State.setKey_toneActive (s : State) (k : BitVec 16) : (s.setKey k).toneActive = s.toneActive := rfl
@[simp] theorem State.setKey_runState (s : State) (k : BitVec 16) : (s.setKey k).runState = s.runState := rfl
@[simp] theorem State.setKey_faultCode (s : State) (k : BitVec 16) : (s.setKey k).faultCode = s.faultCode := rfl
@[simp] theorem State.setKey_faultPc (s : State) (k : BitVec 16) : (s.setKey k).faultPc = s.faultPc := rfl
@[simp] theorem State.setKey_faultAddr (s : State) (k : BitVec 16) : (s.setKey k).faultAddr = s.faultAddr := rfl
@[simp] theorem State.setKey_frame (s : State) (k : BitVec 16) : (s.setKey k).frame = s.frame := rfl
@[simp] theorem State.setKey_inbox (s : State) (k : BitVec 16) : (s.setKey k).inbox = s.inbox := rfl
@[simp] theorem State.setKey_out (s : State) (k : BitVec 16) : (s.setKey k).out = s.out := rfl
@[simp] theorem State.setKey_draws (s : State) (k : BitVec 16) : (s.setKey k).draws = s.draws := rfl

/-! ### setKw -/

@[simp] theorem State.setKw_cfg (s : State) (p : KwPhase) (k : KeyIndex) : (s.setKw p k).cfg = s.cfg := rfl
@[simp] theorem State.setKw_v (s : State) (p : KwPhase) (k : KeyIndex) : (s.setKw p k).v = s.v := rfl
@[simp] theorem State.setKw_i (s : State) (p : KwPhase) (k : KeyIndex) : (s.setKw p k).i = s.i := rfl
@[simp] theorem State.setKw_pc (s : State) (p : KwPhase) (k : KeyIndex) : (s.setKw p k).pc = s.pc := rfl
@[simp] theorem State.setKw_sp (s : State) (p : KwPhase) (k : KeyIndex) : (s.setKw p k).sp = s.sp := rfl
@[simp] theorem State.setKw_stack (s : State) (p : KwPhase) (k : KeyIndex) : (s.setKw p k).stack = s.stack := rfl
@[simp] theorem State.setKw_dt (s : State) (p : KwPhase) (k : KeyIndex) : (s.setKw p k).dt = s.dt := rfl
@[simp] theorem State.setKw_st (s : State) (p : KwPhase) (k : KeyIndex) : (s.setKw p k).st = s.st := rfl
@[simp] theorem State.setKw_ram (s : State) (p : KwPhase) (k : KeyIndex) : (s.setKw p k).ram = s.ram := rfl
@[simp] theorem State.setKw_fb (s : State) (p : KwPhase) (k : KeyIndex) : (s.setKw p k).fb = s.fb := rfl
@[simp] theorem State.setKw_key (s : State) (p : KwPhase) (k : KeyIndex) : (s.setKw p k).key = s.key := rfl
@[simp] theorem State.setKw_kwPhase (s : State) (p : KwPhase) (k : KeyIndex) : (s.setKw p k).kwPhase = p := rfl
@[simp] theorem State.setKw_kwKey (s : State) (p : KwPhase) (k : KeyIndex) : (s.setKw p k).kwKey = k := rfl
@[simp] theorem State.setKw_toneActive (s : State) (p : KwPhase) (k : KeyIndex) : (s.setKw p k).toneActive = s.toneActive := rfl
@[simp] theorem State.setKw_runState (s : State) (p : KwPhase) (k : KeyIndex) : (s.setKw p k).runState = s.runState := rfl
@[simp] theorem State.setKw_faultCode (s : State) (p : KwPhase) (k : KeyIndex) : (s.setKw p k).faultCode = s.faultCode := rfl
@[simp] theorem State.setKw_faultPc (s : State) (p : KwPhase) (k : KeyIndex) : (s.setKw p k).faultPc = s.faultPc := rfl
@[simp] theorem State.setKw_faultAddr (s : State) (p : KwPhase) (k : KeyIndex) : (s.setKw p k).faultAddr = s.faultAddr := rfl
@[simp] theorem State.setKw_frame (s : State) (p : KwPhase) (k : KeyIndex) : (s.setKw p k).frame = s.frame := rfl
@[simp] theorem State.setKw_inbox (s : State) (p : KwPhase) (k : KeyIndex) : (s.setKw p k).inbox = s.inbox := rfl
@[simp] theorem State.setKw_out (s : State) (p : KwPhase) (k : KeyIndex) : (s.setKw p k).out = s.out := rfl
@[simp] theorem State.setKw_draws (s : State) (p : KwPhase) (k : KeyIndex) : (s.setKw p k).draws = s.draws := rfl

/-! ### setRunState -/

@[simp] theorem State.setRunState_cfg (s : State) (r : RunState) : (s.setRunState r).cfg = s.cfg := rfl
@[simp] theorem State.setRunState_v (s : State) (r : RunState) : (s.setRunState r).v = s.v := rfl
@[simp] theorem State.setRunState_i (s : State) (r : RunState) : (s.setRunState r).i = s.i := rfl
@[simp] theorem State.setRunState_pc (s : State) (r : RunState) : (s.setRunState r).pc = s.pc := rfl
@[simp] theorem State.setRunState_sp (s : State) (r : RunState) : (s.setRunState r).sp = s.sp := rfl
@[simp] theorem State.setRunState_stack (s : State) (r : RunState) : (s.setRunState r).stack = s.stack := rfl
@[simp] theorem State.setRunState_dt (s : State) (r : RunState) : (s.setRunState r).dt = s.dt := rfl
@[simp] theorem State.setRunState_st (s : State) (r : RunState) : (s.setRunState r).st = s.st := rfl
@[simp] theorem State.setRunState_ram (s : State) (r : RunState) : (s.setRunState r).ram = s.ram := rfl
@[simp] theorem State.setRunState_fb (s : State) (r : RunState) : (s.setRunState r).fb = s.fb := rfl
@[simp] theorem State.setRunState_key (s : State) (r : RunState) : (s.setRunState r).key = s.key := rfl
@[simp] theorem State.setRunState_kwPhase (s : State) (r : RunState) : (s.setRunState r).kwPhase = s.kwPhase := rfl
@[simp] theorem State.setRunState_kwKey (s : State) (r : RunState) : (s.setRunState r).kwKey = s.kwKey := rfl
@[simp] theorem State.setRunState_toneActive (s : State) (r : RunState) : (s.setRunState r).toneActive = s.toneActive := rfl
@[simp] theorem State.setRunState_runState (s : State) (r : RunState) : (s.setRunState r).runState = r := rfl
@[simp] theorem State.setRunState_faultCode (s : State) (r : RunState) : (s.setRunState r).faultCode = s.faultCode := rfl
@[simp] theorem State.setRunState_faultPc (s : State) (r : RunState) : (s.setRunState r).faultPc = s.faultPc := rfl
@[simp] theorem State.setRunState_faultAddr (s : State) (r : RunState) : (s.setRunState r).faultAddr = s.faultAddr := rfl
@[simp] theorem State.setRunState_frame (s : State) (r : RunState) : (s.setRunState r).frame = s.frame := rfl
@[simp] theorem State.setRunState_inbox (s : State) (r : RunState) : (s.setRunState r).inbox = s.inbox := rfl
@[simp] theorem State.setRunState_out (s : State) (r : RunState) : (s.setRunState r).out = s.out := rfl
@[simp] theorem State.setRunState_draws (s : State) (r : RunState) : (s.setRunState r).draws = s.draws := rfl

/-! ### setFrame -/

@[simp] theorem State.setFrame_cfg (s : State) (f : FramePos) : (s.setFrame f).cfg = s.cfg := rfl
@[simp] theorem State.setFrame_v (s : State) (f : FramePos) : (s.setFrame f).v = s.v := rfl
@[simp] theorem State.setFrame_i (s : State) (f : FramePos) : (s.setFrame f).i = s.i := rfl
@[simp] theorem State.setFrame_pc (s : State) (f : FramePos) : (s.setFrame f).pc = s.pc := rfl
@[simp] theorem State.setFrame_sp (s : State) (f : FramePos) : (s.setFrame f).sp = s.sp := rfl
@[simp] theorem State.setFrame_stack (s : State) (f : FramePos) : (s.setFrame f).stack = s.stack := rfl
@[simp] theorem State.setFrame_dt (s : State) (f : FramePos) : (s.setFrame f).dt = s.dt := rfl
@[simp] theorem State.setFrame_st (s : State) (f : FramePos) : (s.setFrame f).st = s.st := rfl
@[simp] theorem State.setFrame_ram (s : State) (f : FramePos) : (s.setFrame f).ram = s.ram := rfl
@[simp] theorem State.setFrame_fb (s : State) (f : FramePos) : (s.setFrame f).fb = s.fb := rfl
@[simp] theorem State.setFrame_key (s : State) (f : FramePos) : (s.setFrame f).key = s.key := rfl
@[simp] theorem State.setFrame_kwPhase (s : State) (f : FramePos) : (s.setFrame f).kwPhase = s.kwPhase := rfl
@[simp] theorem State.setFrame_kwKey (s : State) (f : FramePos) : (s.setFrame f).kwKey = s.kwKey := rfl
@[simp] theorem State.setFrame_toneActive (s : State) (f : FramePos) : (s.setFrame f).toneActive = s.toneActive := rfl
@[simp] theorem State.setFrame_runState (s : State) (f : FramePos) : (s.setFrame f).runState = s.runState := rfl
@[simp] theorem State.setFrame_faultCode (s : State) (f : FramePos) : (s.setFrame f).faultCode = s.faultCode := rfl
@[simp] theorem State.setFrame_faultPc (s : State) (f : FramePos) : (s.setFrame f).faultPc = s.faultPc := rfl
@[simp] theorem State.setFrame_faultAddr (s : State) (f : FramePos) : (s.setFrame f).faultAddr = s.faultAddr := rfl
@[simp] theorem State.setFrame_frame (s : State) (f : FramePos) : (s.setFrame f).frame = f := rfl
@[simp] theorem State.setFrame_inbox (s : State) (f : FramePos) : (s.setFrame f).inbox = s.inbox := rfl
@[simp] theorem State.setFrame_out (s : State) (f : FramePos) : (s.setFrame f).out = s.out := rfl
@[simp] theorem State.setFrame_draws (s : State) (f : FramePos) : (s.setFrame f).draws = s.draws := rfl

/-! ### setOut -/

@[simp] theorem State.setOut_cfg (s : State) (o : Option Output) : (s.setOut o).cfg = s.cfg := rfl
@[simp] theorem State.setOut_v (s : State) (o : Option Output) : (s.setOut o).v = s.v := rfl
@[simp] theorem State.setOut_i (s : State) (o : Option Output) : (s.setOut o).i = s.i := rfl
@[simp] theorem State.setOut_pc (s : State) (o : Option Output) : (s.setOut o).pc = s.pc := rfl
@[simp] theorem State.setOut_sp (s : State) (o : Option Output) : (s.setOut o).sp = s.sp := rfl
@[simp] theorem State.setOut_stack (s : State) (o : Option Output) : (s.setOut o).stack = s.stack := rfl
@[simp] theorem State.setOut_dt (s : State) (o : Option Output) : (s.setOut o).dt = s.dt := rfl
@[simp] theorem State.setOut_st (s : State) (o : Option Output) : (s.setOut o).st = s.st := rfl
@[simp] theorem State.setOut_ram (s : State) (o : Option Output) : (s.setOut o).ram = s.ram := rfl
@[simp] theorem State.setOut_fb (s : State) (o : Option Output) : (s.setOut o).fb = s.fb := rfl
@[simp] theorem State.setOut_key (s : State) (o : Option Output) : (s.setOut o).key = s.key := rfl
@[simp] theorem State.setOut_kwPhase (s : State) (o : Option Output) : (s.setOut o).kwPhase = s.kwPhase := rfl
@[simp] theorem State.setOut_kwKey (s : State) (o : Option Output) : (s.setOut o).kwKey = s.kwKey := rfl
@[simp] theorem State.setOut_toneActive (s : State) (o : Option Output) : (s.setOut o).toneActive = s.toneActive := rfl
@[simp] theorem State.setOut_runState (s : State) (o : Option Output) : (s.setOut o).runState = s.runState := rfl
@[simp] theorem State.setOut_faultCode (s : State) (o : Option Output) : (s.setOut o).faultCode = s.faultCode := rfl
@[simp] theorem State.setOut_faultPc (s : State) (o : Option Output) : (s.setOut o).faultPc = s.faultPc := rfl
@[simp] theorem State.setOut_faultAddr (s : State) (o : Option Output) : (s.setOut o).faultAddr = s.faultAddr := rfl
@[simp] theorem State.setOut_frame (s : State) (o : Option Output) : (s.setOut o).frame = s.frame := rfl
@[simp] theorem State.setOut_inbox (s : State) (o : Option Output) : (s.setOut o).inbox = s.inbox := rfl
@[simp] theorem State.setOut_out (s : State) (o : Option Output) : (s.setOut o).out = o := rfl
@[simp] theorem State.setOut_draws (s : State) (o : Option Output) : (s.setOut o).draws = s.draws := rfl

/-! ### setV -/

@[simp] theorem State.setV_cfg (s : State) (x : Reg) (b : Byte) : (s.setV x b).cfg = s.cfg := rfl
@[simp] theorem State.setV_v (s : State) (x : Reg) (b : Byte) : (s.setV x b).v = s.v.set x.val b x.isLt := rfl
@[simp] theorem State.setV_i (s : State) (x : Reg) (b : Byte) : (s.setV x b).i = s.i := rfl
@[simp] theorem State.setV_pc (s : State) (x : Reg) (b : Byte) : (s.setV x b).pc = s.pc := rfl
@[simp] theorem State.setV_sp (s : State) (x : Reg) (b : Byte) : (s.setV x b).sp = s.sp := rfl
@[simp] theorem State.setV_stack (s : State) (x : Reg) (b : Byte) : (s.setV x b).stack = s.stack := rfl
@[simp] theorem State.setV_dt (s : State) (x : Reg) (b : Byte) : (s.setV x b).dt = s.dt := rfl
@[simp] theorem State.setV_st (s : State) (x : Reg) (b : Byte) : (s.setV x b).st = s.st := rfl
@[simp] theorem State.setV_ram (s : State) (x : Reg) (b : Byte) : (s.setV x b).ram = s.ram := rfl
@[simp] theorem State.setV_fb (s : State) (x : Reg) (b : Byte) : (s.setV x b).fb = s.fb := rfl
@[simp] theorem State.setV_key (s : State) (x : Reg) (b : Byte) : (s.setV x b).key = s.key := rfl
@[simp] theorem State.setV_kwPhase (s : State) (x : Reg) (b : Byte) : (s.setV x b).kwPhase = s.kwPhase := rfl
@[simp] theorem State.setV_kwKey (s : State) (x : Reg) (b : Byte) : (s.setV x b).kwKey = s.kwKey := rfl
@[simp] theorem State.setV_toneActive (s : State) (x : Reg) (b : Byte) : (s.setV x b).toneActive = s.toneActive := rfl
@[simp] theorem State.setV_runState (s : State) (x : Reg) (b : Byte) : (s.setV x b).runState = s.runState := rfl
@[simp] theorem State.setV_faultCode (s : State) (x : Reg) (b : Byte) : (s.setV x b).faultCode = s.faultCode := rfl
@[simp] theorem State.setV_faultPc (s : State) (x : Reg) (b : Byte) : (s.setV x b).faultPc = s.faultPc := rfl
@[simp] theorem State.setV_faultAddr (s : State) (x : Reg) (b : Byte) : (s.setV x b).faultAddr = s.faultAddr := rfl
@[simp] theorem State.setV_frame (s : State) (x : Reg) (b : Byte) : (s.setV x b).frame = s.frame := rfl
@[simp] theorem State.setV_inbox (s : State) (x : Reg) (b : Byte) : (s.setV x b).inbox = s.inbox := rfl
@[simp] theorem State.setV_out (s : State) (x : Reg) (b : Byte) : (s.setV x b).out = s.out := rfl
@[simp] theorem State.setV_draws (s : State) (x : Reg) (b : Byte) : (s.setV x b).draws = s.draws := rfl

/-! ### advance -/

@[simp] theorem State.advance_cfg (s : State) : (s.advance).cfg = s.cfg := rfl
@[simp] theorem State.advance_v (s : State) : (s.advance).v = s.v := rfl
@[simp] theorem State.advance_i (s : State) : (s.advance).i = s.i := rfl
@[simp] theorem State.advance_pc (s : State) : (s.advance).pc = s.pc + 2 := rfl
@[simp] theorem State.advance_sp (s : State) : (s.advance).sp = s.sp := rfl
@[simp] theorem State.advance_stack (s : State) : (s.advance).stack = s.stack := rfl
@[simp] theorem State.advance_dt (s : State) : (s.advance).dt = s.dt := rfl
@[simp] theorem State.advance_st (s : State) : (s.advance).st = s.st := rfl
@[simp] theorem State.advance_ram (s : State) : (s.advance).ram = s.ram := rfl
@[simp] theorem State.advance_fb (s : State) : (s.advance).fb = s.fb := rfl
@[simp] theorem State.advance_key (s : State) : (s.advance).key = s.key := rfl
@[simp] theorem State.advance_kwPhase (s : State) : (s.advance).kwPhase = s.kwPhase := rfl
@[simp] theorem State.advance_kwKey (s : State) : (s.advance).kwKey = s.kwKey := rfl
@[simp] theorem State.advance_toneActive (s : State) : (s.advance).toneActive = s.toneActive := rfl
@[simp] theorem State.advance_runState (s : State) : (s.advance).runState = s.runState := rfl
@[simp] theorem State.advance_faultCode (s : State) : (s.advance).faultCode = s.faultCode := rfl
@[simp] theorem State.advance_faultPc (s : State) : (s.advance).faultPc = s.faultPc := rfl
@[simp] theorem State.advance_faultAddr (s : State) : (s.advance).faultAddr = s.faultAddr := rfl
@[simp] theorem State.advance_frame (s : State) : (s.advance).frame = s.frame := rfl
@[simp] theorem State.advance_inbox (s : State) : (s.advance).inbox = s.inbox := rfl
@[simp] theorem State.advance_out (s : State) : (s.advance).out = s.out := rfl
@[simp] theorem State.advance_draws (s : State) : (s.advance).draws = s.draws := rfl

/-! ### push -/

@[simp] theorem State.push_cfg (s : State) (a : Word) : (s.push a).cfg = s.cfg := rfl
@[simp] theorem State.push_v (s : State) (a : Word) : (s.push a).v = s.v := rfl
@[simp] theorem State.push_i (s : State) (a : Word) : (s.push a).i = s.i := rfl
@[simp] theorem State.push_pc (s : State) (a : Word) : (s.push a).pc = s.pc := rfl
@[simp] theorem State.push_sp (s : State) (a : Word) : (s.push a).sp = s.sp + 1 := rfl
@[simp] theorem State.push_stack (s : State) (a : Word) : (s.push a).stack = s.stack.setIfInBounds s.sp a := rfl
@[simp] theorem State.push_dt (s : State) (a : Word) : (s.push a).dt = s.dt := rfl
@[simp] theorem State.push_st (s : State) (a : Word) : (s.push a).st = s.st := rfl
@[simp] theorem State.push_ram (s : State) (a : Word) : (s.push a).ram = s.ram := rfl
@[simp] theorem State.push_fb (s : State) (a : Word) : (s.push a).fb = s.fb := rfl
@[simp] theorem State.push_key (s : State) (a : Word) : (s.push a).key = s.key := rfl
@[simp] theorem State.push_kwPhase (s : State) (a : Word) : (s.push a).kwPhase = s.kwPhase := rfl
@[simp] theorem State.push_kwKey (s : State) (a : Word) : (s.push a).kwKey = s.kwKey := rfl
@[simp] theorem State.push_toneActive (s : State) (a : Word) : (s.push a).toneActive = s.toneActive := rfl
@[simp] theorem State.push_runState (s : State) (a : Word) : (s.push a).runState = s.runState := rfl
@[simp] theorem State.push_faultCode (s : State) (a : Word) : (s.push a).faultCode = s.faultCode := rfl
@[simp] theorem State.push_faultPc (s : State) (a : Word) : (s.push a).faultPc = s.faultPc := rfl
@[simp] theorem State.push_faultAddr (s : State) (a : Word) : (s.push a).faultAddr = s.faultAddr := rfl
@[simp] theorem State.push_frame (s : State) (a : Word) : (s.push a).frame = s.frame := rfl
@[simp] theorem State.push_inbox (s : State) (a : Word) : (s.push a).inbox = s.inbox := rfl
@[simp] theorem State.push_out (s : State) (a : Word) : (s.push a).out = s.out := rfl
@[simp] theorem State.push_draws (s : State) (a : Word) : (s.push a).draws = s.draws := rfl

/-! ### pop -/

@[simp] theorem State.pop_cfg (s : State) : (s.pop).cfg = s.cfg := rfl
@[simp] theorem State.pop_v (s : State) : (s.pop).v = s.v := rfl
@[simp] theorem State.pop_i (s : State) : (s.pop).i = s.i := rfl
@[simp] theorem State.pop_pc (s : State) : (s.pop).pc = s.pc := rfl
@[simp] theorem State.pop_sp (s : State) : (s.pop).sp = s.sp - 1 := rfl
@[simp] theorem State.pop_stack (s : State) : (s.pop).stack = s.stack := rfl
@[simp] theorem State.pop_dt (s : State) : (s.pop).dt = s.dt := rfl
@[simp] theorem State.pop_st (s : State) : (s.pop).st = s.st := rfl
@[simp] theorem State.pop_ram (s : State) : (s.pop).ram = s.ram := rfl
@[simp] theorem State.pop_fb (s : State) : (s.pop).fb = s.fb := rfl
@[simp] theorem State.pop_key (s : State) : (s.pop).key = s.key := rfl
@[simp] theorem State.pop_kwPhase (s : State) : (s.pop).kwPhase = s.kwPhase := rfl
@[simp] theorem State.pop_kwKey (s : State) : (s.pop).kwKey = s.kwKey := rfl
@[simp] theorem State.pop_toneActive (s : State) : (s.pop).toneActive = s.toneActive := rfl
@[simp] theorem State.pop_runState (s : State) : (s.pop).runState = s.runState := rfl
@[simp] theorem State.pop_faultCode (s : State) : (s.pop).faultCode = s.faultCode := rfl
@[simp] theorem State.pop_faultPc (s : State) : (s.pop).faultPc = s.faultPc := rfl
@[simp] theorem State.pop_faultAddr (s : State) : (s.pop).faultAddr = s.faultAddr := rfl
@[simp] theorem State.pop_frame (s : State) : (s.pop).frame = s.frame := rfl
@[simp] theorem State.pop_inbox (s : State) : (s.pop).inbox = s.inbox := rfl
@[simp] theorem State.pop_out (s : State) : (s.pop).out = s.out := rfl
@[simp] theorem State.pop_draws (s : State) : (s.pop).draws = s.draws := rfl

/-! ### countDraw -/

@[simp] theorem State.countDraw_cfg (s : State) : (s.countDraw).cfg = s.cfg := rfl
@[simp] theorem State.countDraw_v (s : State) : (s.countDraw).v = s.v := rfl
@[simp] theorem State.countDraw_i (s : State) : (s.countDraw).i = s.i := rfl
@[simp] theorem State.countDraw_pc (s : State) : (s.countDraw).pc = s.pc := rfl
@[simp] theorem State.countDraw_sp (s : State) : (s.countDraw).sp = s.sp := rfl
@[simp] theorem State.countDraw_stack (s : State) : (s.countDraw).stack = s.stack := rfl
@[simp] theorem State.countDraw_dt (s : State) : (s.countDraw).dt = s.dt := rfl
@[simp] theorem State.countDraw_st (s : State) : (s.countDraw).st = s.st := rfl
@[simp] theorem State.countDraw_ram (s : State) : (s.countDraw).ram = s.ram := rfl
@[simp] theorem State.countDraw_fb (s : State) : (s.countDraw).fb = s.fb := rfl
@[simp] theorem State.countDraw_key (s : State) : (s.countDraw).key = s.key := rfl
@[simp] theorem State.countDraw_kwPhase (s : State) : (s.countDraw).kwPhase = s.kwPhase := rfl
@[simp] theorem State.countDraw_kwKey (s : State) : (s.countDraw).kwKey = s.kwKey := rfl
@[simp] theorem State.countDraw_toneActive (s : State) : (s.countDraw).toneActive = s.toneActive := rfl
@[simp] theorem State.countDraw_runState (s : State) : (s.countDraw).runState = s.runState := rfl
@[simp] theorem State.countDraw_faultCode (s : State) : (s.countDraw).faultCode = s.faultCode := rfl
@[simp] theorem State.countDraw_faultPc (s : State) : (s.countDraw).faultPc = s.faultPc := rfl
@[simp] theorem State.countDraw_faultAddr (s : State) : (s.countDraw).faultAddr = s.faultAddr := rfl
@[simp] theorem State.countDraw_frame (s : State) : (s.countDraw).frame = s.frame := rfl
@[simp] theorem State.countDraw_inbox (s : State) : (s.countDraw).inbox = s.inbox := rfl
@[simp] theorem State.countDraw_out (s : State) : (s.countDraw).out = s.out := rfl
@[simp] theorem State.countDraw_draws (s : State) : (s.countDraw).draws = s.draws + 1 := rfl

/-! ### setRamByte -/

@[simp] theorem State.setRamByte_cfg (s : State) (a : Nat) (b : Byte) : (s.setRamByte a b).cfg = s.cfg := rfl
@[simp] theorem State.setRamByte_v (s : State) (a : Nat) (b : Byte) : (s.setRamByte a b).v = s.v := rfl
@[simp] theorem State.setRamByte_i (s : State) (a : Nat) (b : Byte) : (s.setRamByte a b).i = s.i := rfl
@[simp] theorem State.setRamByte_pc (s : State) (a : Nat) (b : Byte) : (s.setRamByte a b).pc = s.pc := rfl
@[simp] theorem State.setRamByte_sp (s : State) (a : Nat) (b : Byte) : (s.setRamByte a b).sp = s.sp := rfl
@[simp] theorem State.setRamByte_stack (s : State) (a : Nat) (b : Byte) : (s.setRamByte a b).stack = s.stack := rfl
@[simp] theorem State.setRamByte_dt (s : State) (a : Nat) (b : Byte) : (s.setRamByte a b).dt = s.dt := rfl
@[simp] theorem State.setRamByte_st (s : State) (a : Nat) (b : Byte) : (s.setRamByte a b).st = s.st := rfl
@[simp] theorem State.setRamByte_ram (s : State) (a : Nat) (b : Byte) : (s.setRamByte a b).ram = Memory.write s.cfg s.ram a b := rfl
@[simp] theorem State.setRamByte_fb (s : State) (a : Nat) (b : Byte) : (s.setRamByte a b).fb = s.fb := rfl
@[simp] theorem State.setRamByte_key (s : State) (a : Nat) (b : Byte) : (s.setRamByte a b).key = s.key := rfl
@[simp] theorem State.setRamByte_kwPhase (s : State) (a : Nat) (b : Byte) : (s.setRamByte a b).kwPhase = s.kwPhase := rfl
@[simp] theorem State.setRamByte_kwKey (s : State) (a : Nat) (b : Byte) : (s.setRamByte a b).kwKey = s.kwKey := rfl
@[simp] theorem State.setRamByte_toneActive (s : State) (a : Nat) (b : Byte) : (s.setRamByte a b).toneActive = s.toneActive := rfl
@[simp] theorem State.setRamByte_runState (s : State) (a : Nat) (b : Byte) : (s.setRamByte a b).runState = s.runState := rfl
@[simp] theorem State.setRamByte_faultCode (s : State) (a : Nat) (b : Byte) : (s.setRamByte a b).faultCode = s.faultCode := rfl
@[simp] theorem State.setRamByte_faultPc (s : State) (a : Nat) (b : Byte) : (s.setRamByte a b).faultPc = s.faultPc := rfl
@[simp] theorem State.setRamByte_faultAddr (s : State) (a : Nat) (b : Byte) : (s.setRamByte a b).faultAddr = s.faultAddr := rfl
@[simp] theorem State.setRamByte_frame (s : State) (a : Nat) (b : Byte) : (s.setRamByte a b).frame = s.frame := rfl
@[simp] theorem State.setRamByte_inbox (s : State) (a : Nat) (b : Byte) : (s.setRamByte a b).inbox = s.inbox := rfl
@[simp] theorem State.setRamByte_out (s : State) (a : Nat) (b : Byte) : (s.setRamByte a b).out = s.out := rfl
@[simp] theorem State.setRamByte_draws (s : State) (a : Nat) (b : Byte) : (s.setRamByte a b).draws = s.draws := rfl

/-! ### raiseFault -/

@[simp] theorem State.raiseFault_cfg (s : State) (c : FaultCode) (a : Nat) : (s.raiseFault c a).cfg = s.cfg := rfl
@[simp] theorem State.raiseFault_v (s : State) (c : FaultCode) (a : Nat) : (s.raiseFault c a).v = s.v := rfl
@[simp] theorem State.raiseFault_i (s : State) (c : FaultCode) (a : Nat) : (s.raiseFault c a).i = s.i := rfl
@[simp] theorem State.raiseFault_pc (s : State) (c : FaultCode) (a : Nat) : (s.raiseFault c a).pc = s.pc := rfl
@[simp] theorem State.raiseFault_sp (s : State) (c : FaultCode) (a : Nat) : (s.raiseFault c a).sp = s.sp := rfl
@[simp] theorem State.raiseFault_stack (s : State) (c : FaultCode) (a : Nat) : (s.raiseFault c a).stack = s.stack := rfl
@[simp] theorem State.raiseFault_dt (s : State) (c : FaultCode) (a : Nat) : (s.raiseFault c a).dt = s.dt := rfl
@[simp] theorem State.raiseFault_st (s : State) (c : FaultCode) (a : Nat) : (s.raiseFault c a).st = s.st := rfl
@[simp] theorem State.raiseFault_ram (s : State) (c : FaultCode) (a : Nat) : (s.raiseFault c a).ram = s.ram := rfl
@[simp] theorem State.raiseFault_fb (s : State) (c : FaultCode) (a : Nat) : (s.raiseFault c a).fb = s.fb := rfl
@[simp] theorem State.raiseFault_key (s : State) (c : FaultCode) (a : Nat) : (s.raiseFault c a).key = s.key := rfl
@[simp] theorem State.raiseFault_kwPhase (s : State) (c : FaultCode) (a : Nat) : (s.raiseFault c a).kwPhase = s.kwPhase := rfl
@[simp] theorem State.raiseFault_kwKey (s : State) (c : FaultCode) (a : Nat) : (s.raiseFault c a).kwKey = s.kwKey := rfl
@[simp] theorem State.raiseFault_toneActive (s : State) (c : FaultCode) (a : Nat) : (s.raiseFault c a).toneActive = s.toneActive := rfl
@[simp] theorem State.raiseFault_runState (s : State) (c : FaultCode) (a : Nat) : (s.raiseFault c a).runState = .fault := rfl
@[simp] theorem State.raiseFault_faultCode (s : State) (c : FaultCode) (a : Nat) : (s.raiseFault c a).faultCode = c := rfl
@[simp] theorem State.raiseFault_faultPc (s : State) (c : FaultCode) (a : Nat) : (s.raiseFault c a).faultPc = s.pc := rfl
@[simp] theorem State.raiseFault_faultAddr (s : State) (c : FaultCode) (a : Nat) : (s.raiseFault c a).faultAddr = BitVec.ofNat 17 a := rfl
@[simp] theorem State.raiseFault_frame (s : State) (c : FaultCode) (a : Nat) : (s.raiseFault c a).frame = .awaitTick := rfl
@[simp] theorem State.raiseFault_inbox (s : State) (c : FaultCode) (a : Nat) : (s.raiseFault c a).inbox = s.inbox := rfl
@[simp] theorem State.raiseFault_out (s : State) (c : FaultCode) (a : Nat) : (s.raiseFault c a).out = s.out := rfl
@[simp] theorem State.raiseFault_draws (s : State) (c : FaultCode) (a : Nat) : (s.raiseFault c a).draws = s.draws := rfl

/-! ### repeatInstr -/

@[simp] theorem State.repeatInstr_cfg (s : State) : (s.repeatInstr).cfg = s.cfg := rfl
@[simp] theorem State.repeatInstr_v (s : State) : (s.repeatInstr).v = s.v := rfl
@[simp] theorem State.repeatInstr_i (s : State) : (s.repeatInstr).i = s.i := rfl
@[simp] theorem State.repeatInstr_pc (s : State) : (s.repeatInstr).pc = s.pc - 2 := rfl
@[simp] theorem State.repeatInstr_sp (s : State) : (s.repeatInstr).sp = s.sp := rfl
@[simp] theorem State.repeatInstr_stack (s : State) : (s.repeatInstr).stack = s.stack := rfl
@[simp] theorem State.repeatInstr_dt (s : State) : (s.repeatInstr).dt = s.dt := rfl
@[simp] theorem State.repeatInstr_st (s : State) : (s.repeatInstr).st = s.st := rfl
@[simp] theorem State.repeatInstr_ram (s : State) : (s.repeatInstr).ram = s.ram := rfl
@[simp] theorem State.repeatInstr_fb (s : State) : (s.repeatInstr).fb = s.fb := rfl
@[simp] theorem State.repeatInstr_key (s : State) : (s.repeatInstr).key = s.key := rfl
@[simp] theorem State.repeatInstr_kwPhase (s : State) : (s.repeatInstr).kwPhase = s.kwPhase := rfl
@[simp] theorem State.repeatInstr_kwKey (s : State) : (s.repeatInstr).kwKey = s.kwKey := rfl
@[simp] theorem State.repeatInstr_toneActive (s : State) : (s.repeatInstr).toneActive = s.toneActive := rfl
@[simp] theorem State.repeatInstr_runState (s : State) : (s.repeatInstr).runState = s.runState := rfl
@[simp] theorem State.repeatInstr_faultCode (s : State) : (s.repeatInstr).faultCode = s.faultCode := rfl
@[simp] theorem State.repeatInstr_faultPc (s : State) : (s.repeatInstr).faultPc = s.faultPc := rfl
@[simp] theorem State.repeatInstr_faultAddr (s : State) : (s.repeatInstr).faultAddr = s.faultAddr := rfl
@[simp] theorem State.repeatInstr_frame (s : State) : (s.repeatInstr).frame = s.frame := rfl
@[simp] theorem State.repeatInstr_inbox (s : State) : (s.repeatInstr).inbox = s.inbox := rfl
@[simp] theorem State.repeatInstr_out (s : State) : (s.repeatInstr).out = s.out := rfl
@[simp] theorem State.repeatInstr_draws (s : State) : (s.repeatInstr).draws = s.draws := rfl

/-! ### takeSlot -/

@[simp] theorem State.takeSlot_cfg (s : State) (n : Nat) : (s.takeSlot n).cfg = s.cfg := rfl
@[simp] theorem State.takeSlot_v (s : State) (n : Nat) : (s.takeSlot n).v = s.v := rfl
@[simp] theorem State.takeSlot_i (s : State) (n : Nat) : (s.takeSlot n).i = s.i := rfl
@[simp] theorem State.takeSlot_pc (s : State) (n : Nat) : (s.takeSlot n).pc = s.pc := rfl
@[simp] theorem State.takeSlot_sp (s : State) (n : Nat) : (s.takeSlot n).sp = s.sp := rfl
@[simp] theorem State.takeSlot_stack (s : State) (n : Nat) : (s.takeSlot n).stack = s.stack := rfl
@[simp] theorem State.takeSlot_dt (s : State) (n : Nat) : (s.takeSlot n).dt = s.dt := rfl
@[simp] theorem State.takeSlot_st (s : State) (n : Nat) : (s.takeSlot n).st = s.st := rfl
@[simp] theorem State.takeSlot_ram (s : State) (n : Nat) : (s.takeSlot n).ram = s.ram := rfl
@[simp] theorem State.takeSlot_fb (s : State) (n : Nat) : (s.takeSlot n).fb = s.fb := rfl
@[simp] theorem State.takeSlot_key (s : State) (n : Nat) : (s.takeSlot n).key = s.key := rfl
@[simp] theorem State.takeSlot_kwPhase (s : State) (n : Nat) : (s.takeSlot n).kwPhase = s.kwPhase := rfl
@[simp] theorem State.takeSlot_kwKey (s : State) (n : Nat) : (s.takeSlot n).kwKey = s.kwKey := rfl
@[simp] theorem State.takeSlot_toneActive (s : State) (n : Nat) : (s.takeSlot n).toneActive = s.toneActive := rfl
@[simp] theorem State.takeSlot_runState (s : State) (n : Nat) : (s.takeSlot n).runState = s.runState := rfl
@[simp] theorem State.takeSlot_faultCode (s : State) (n : Nat) : (s.takeSlot n).faultCode = s.faultCode := rfl
@[simp] theorem State.takeSlot_faultPc (s : State) (n : Nat) : (s.takeSlot n).faultPc = s.faultPc := rfl
@[simp] theorem State.takeSlot_faultAddr (s : State) (n : Nat) : (s.takeSlot n).faultAddr = s.faultAddr := rfl
@[simp] theorem State.takeSlot_frame (s : State) (n : Nat) : (s.takeSlot n).frame = .slots n := rfl
@[simp] theorem State.takeSlot_inbox (s : State) (n : Nat) : (s.takeSlot n).inbox = s.inbox := rfl
@[simp] theorem State.takeSlot_out (s : State) (n : Nat) : (s.takeSlot n).out = none := rfl
@[simp] theorem State.takeSlot_draws (s : State) (n : Nat) : (s.takeSlot n).draws = s.draws := rfl

/-! ### takeTick -/

@[simp] theorem State.takeTick_cfg (s : State) : (s.takeTick).cfg = s.cfg := rfl
@[simp] theorem State.takeTick_v (s : State) : (s.takeTick).v = s.v := rfl
@[simp] theorem State.takeTick_i (s : State) : (s.takeTick).i = s.i := rfl
@[simp] theorem State.takeTick_pc (s : State) : (s.takeTick).pc = s.pc := rfl
@[simp] theorem State.takeTick_sp (s : State) : (s.takeTick).sp = s.sp := rfl
@[simp] theorem State.takeTick_stack (s : State) : (s.takeTick).stack = s.stack := rfl
@[simp] theorem State.takeTick_dt (s : State) : (s.takeTick).dt = s.dt := rfl
@[simp] theorem State.takeTick_st (s : State) : (s.takeTick).st = s.st := rfl
@[simp] theorem State.takeTick_ram (s : State) : (s.takeTick).ram = s.ram := rfl
@[simp] theorem State.takeTick_fb (s : State) : (s.takeTick).fb = s.fb := rfl
@[simp] theorem State.takeTick_key (s : State) : (s.takeTick).key = s.key := rfl
@[simp] theorem State.takeTick_kwPhase (s : State) : (s.takeTick).kwPhase = s.kwPhase := rfl
@[simp] theorem State.takeTick_kwKey (s : State) : (s.takeTick).kwKey = s.kwKey := rfl
@[simp] theorem State.takeTick_toneActive (s : State) : (s.takeTick).toneActive = s.toneActive := rfl
@[simp] theorem State.takeTick_runState (s : State) : (s.takeTick).runState = s.runState := rfl
@[simp] theorem State.takeTick_faultCode (s : State) : (s.takeTick).faultCode = s.faultCode := rfl
@[simp] theorem State.takeTick_faultPc (s : State) : (s.takeTick).faultPc = s.faultPc := rfl
@[simp] theorem State.takeTick_faultAddr (s : State) : (s.takeTick).faultAddr = s.faultAddr := rfl
@[simp] theorem State.takeTick_frame (s : State) : (s.takeTick).frame = s.frame := rfl
@[simp] theorem State.takeTick_inbox (s : State) : (s.takeTick).inbox = s.inbox.tail := rfl
@[simp] theorem State.takeTick_out (s : State) : (s.takeTick).out = none := rfl
@[simp] theorem State.takeTick_draws (s : State) : (s.takeTick).draws = s.draws := rfl

/-! ### endFrame -/

@[simp] theorem State.endFrame_cfg (s : State) : (s.endFrame).cfg = s.cfg := rfl
@[simp] theorem State.endFrame_v (s : State) : (s.endFrame).v = s.v := rfl
@[simp] theorem State.endFrame_i (s : State) : (s.endFrame).i = s.i := rfl
@[simp] theorem State.endFrame_pc (s : State) : (s.endFrame).pc = s.pc := rfl
@[simp] theorem State.endFrame_sp (s : State) : (s.endFrame).sp = s.sp := rfl
@[simp] theorem State.endFrame_stack (s : State) : (s.endFrame).stack = s.stack := rfl
@[simp] theorem State.endFrame_dt (s : State) : (s.endFrame).dt = countDown s.dt := rfl
@[simp] theorem State.endFrame_st (s : State) : (s.endFrame).st = countDown s.st := rfl
@[simp] theorem State.endFrame_ram (s : State) : (s.endFrame).ram = s.ram := rfl
@[simp] theorem State.endFrame_fb (s : State) : (s.endFrame).fb = s.fb := rfl
@[simp] theorem State.endFrame_key (s : State) : (s.endFrame).key = s.key := rfl
@[simp] theorem State.endFrame_kwPhase (s : State) : (s.endFrame).kwPhase = s.kwPhase := rfl
@[simp] theorem State.endFrame_kwKey (s : State) : (s.endFrame).kwKey = s.kwKey := rfl
@[simp] theorem State.endFrame_toneActive (s : State) : (s.endFrame).toneActive = decide (countDown s.st ≠ 0) := rfl
@[simp] theorem State.endFrame_runState (s : State) : (s.endFrame).runState = s.runState := rfl
@[simp] theorem State.endFrame_faultCode (s : State) : (s.endFrame).faultCode = s.faultCode := rfl
@[simp] theorem State.endFrame_faultPc (s : State) : (s.endFrame).faultPc = s.faultPc := rfl
@[simp] theorem State.endFrame_faultAddr (s : State) : (s.endFrame).faultAddr = s.faultAddr := rfl
@[simp] theorem State.endFrame_frame (s : State) : (s.endFrame).frame = .awaitTick := rfl
@[simp] theorem State.endFrame_inbox (s : State) : (s.endFrame).inbox = s.inbox := rfl
@[simp] theorem State.endFrame_out (s : State) : (s.endFrame).out = some (.render s.fb) := rfl
@[simp] theorem State.endFrame_draws (s : State) : (s.endFrame).draws = s.draws := rfl

/-! ### The operations that choose an update -/

@[simp] theorem State.setFlag_eq (s : State) (b : Bool) : s.setFlag b = s.setV vf (flagByte b) := rfl

@[simp] theorem State.setResultFlag_eq (s : State) (x : Reg) (r : Byte) (b : Bool) :
    s.setResultFlag x r b = (s.setV x r).setV vf (flagByte b) := rfl

@[simp] theorem State.getV_setV (s : State) (x y : Reg) (b : Byte) :
    (s.setV x b).getV y = if x = y then b else s.getV y := by
  simp only [State.getV, State.setV, Vector.getElem_set, Fin.ext_iff]

@[simp] theorem State.getV_setPc (s : State) (a : Word) (x : Reg) : (s.setPc a).getV x = s.getV x := rfl
@[simp] theorem State.getV_setI (s : State) (a : Word) (x : Reg) : (s.setI a).getV x = s.getV x := rfl
@[simp] theorem State.getV_setDt (s : State) (b : Byte) (x : Reg) : (s.setDt b).getV x = s.getV x := rfl
@[simp] theorem State.getV_setSt (s : State) (b : Byte) (x : Reg) : (s.setSt b).getV x = s.getV x := rfl
@[simp] theorem State.getV_setRam (s : State) (m : Memory) (x : Reg) : (s.setRam m).getV x = s.getV x := rfl
@[simp] theorem State.getV_setFb (s : State) (f : Framebuffer) (x : Reg) : (s.setFb f).getV x = s.getV x := rfl
@[simp] theorem State.getV_setKey (s : State) (k : BitVec 16) (x : Reg) : (s.setKey k).getV x = s.getV x := rfl
@[simp] theorem State.getV_setKw (s : State) (p : KwPhase) (k : KeyIndex) (x : Reg) : (s.setKw p k).getV x = s.getV x := rfl
@[simp] theorem State.getV_setRunState (s : State) (r : RunState) (x : Reg) : (s.setRunState r).getV x = s.getV x := rfl
@[simp] theorem State.getV_setFrame (s : State) (f : FramePos) (x : Reg) : (s.setFrame f).getV x = s.getV x := rfl
@[simp] theorem State.getV_setOut (s : State) (o : Option Output) (x : Reg) : (s.setOut o).getV x = s.getV x := rfl
@[simp] theorem State.getV_advance (s : State) (x : Reg) : (s.advance).getV x = s.getV x := rfl
@[simp] theorem State.getV_push (s : State) (a : Word) (x : Reg) : (s.push a).getV x = s.getV x := rfl
@[simp] theorem State.getV_pop (s : State) (x : Reg) : (s.pop).getV x = s.getV x := rfl
@[simp] theorem State.getV_countDraw (s : State) (x : Reg) : (s.countDraw).getV x = s.getV x := rfl
@[simp] theorem State.getV_setRamByte (s : State) (a : Nat) (b : Byte) (x : Reg) : (s.setRamByte a b).getV x = s.getV x := rfl
@[simp] theorem State.getV_raiseFault (s : State) (c : FaultCode) (a : Nat) (x : Reg) : (s.raiseFault c a).getV x = s.getV x := rfl
@[simp] theorem State.getV_repeatInstr (s : State) (x : Reg) : (s.repeatInstr).getV x = s.getV x := rfl
@[simp] theorem State.getV_takeSlot (s : State) (n : Nat) (x : Reg) : (s.takeSlot n).getV x = s.getV x := rfl
@[simp] theorem State.getV_takeTick (s : State) (x : Reg) : (s.takeTick).getV x = s.getV x := rfl
@[simp] theorem State.getV_endFrame (s : State) (x : Reg) : (s.endFrame).getV x = s.getV x := rfl

@[simp] theorem State.ramByte_setPc (s : State) (a : Word) (c : Nat) : (s.setPc a).ramByte c = s.ramByte c := rfl
@[simp] theorem State.ramByte_setI (s : State) (a : Word) (c : Nat) : (s.setI a).ramByte c = s.ramByte c := rfl
@[simp] theorem State.ramByte_setDt (s : State) (b : Byte) (c : Nat) : (s.setDt b).ramByte c = s.ramByte c := rfl
@[simp] theorem State.ramByte_setSt (s : State) (b : Byte) (c : Nat) : (s.setSt b).ramByte c = s.ramByte c := rfl
@[simp] theorem State.ramByte_setFb (s : State) (f : Framebuffer) (c : Nat) : (s.setFb f).ramByte c = s.ramByte c := rfl
@[simp] theorem State.ramByte_setKey (s : State) (k : BitVec 16) (c : Nat) : (s.setKey k).ramByte c = s.ramByte c := rfl
@[simp] theorem State.ramByte_setKw (s : State) (p : KwPhase) (k : KeyIndex) (c : Nat) : (s.setKw p k).ramByte c = s.ramByte c := rfl
@[simp] theorem State.ramByte_setRunState (s : State) (r : RunState) (c : Nat) : (s.setRunState r).ramByte c = s.ramByte c := rfl
@[simp] theorem State.ramByte_setFrame (s : State) (f : FramePos) (c : Nat) : (s.setFrame f).ramByte c = s.ramByte c := rfl
@[simp] theorem State.ramByte_setOut (s : State) (o : Option Output) (c : Nat) : (s.setOut o).ramByte c = s.ramByte c := rfl
@[simp] theorem State.ramByte_setV (s : State) (x : Reg) (b : Byte) (c : Nat) : (s.setV x b).ramByte c = s.ramByte c := rfl
@[simp] theorem State.ramByte_advance (s : State) (c : Nat) : (s.advance).ramByte c = s.ramByte c := rfl
@[simp] theorem State.ramByte_push (s : State) (a : Word) (c : Nat) : (s.push a).ramByte c = s.ramByte c := rfl
@[simp] theorem State.ramByte_pop (s : State) (c : Nat) : (s.pop).ramByte c = s.ramByte c := rfl
@[simp] theorem State.ramByte_countDraw (s : State) (c : Nat) : (s.countDraw).ramByte c = s.ramByte c := rfl
@[simp] theorem State.ramByte_raiseFault (s : State) (c : FaultCode) (a k : Nat) : (s.raiseFault c a).ramByte k = s.ramByte k := rfl
@[simp] theorem State.ramByte_repeatInstr (s : State) (c : Nat) : (s.repeatInstr).ramByte c = s.ramByte c := rfl
@[simp] theorem State.ramByte_takeSlot (s : State) (n : Nat) (c : Nat) : (s.takeSlot n).ramByte c = s.ramByte c := rfl
@[simp] theorem State.ramByte_takeTick (s : State) (c : Nat) : (s.takeTick).ramByte c = s.ramByte c := rfl
@[simp] theorem State.ramByte_endFrame (s : State) (c : Nat) : (s.endFrame).ramByte c = s.ramByte c := rfl

end Sys2Proof.Machine
end

