-- ==== Sys2Proof/Laws/Memory.lean ====
section
/-! SUPPORT. RAM: a read after a write, what a write leaves alone, and the canonical form, which every memory
operation keeps. -/

namespace Sys2Proof.Machine

variable (c : Config)

theorem Memory.wf_iff (m : Memory) :
    Memory.wf c m = true ↔
      m.Pairwise (fun p q => p.1 < q.1) ∧ ∀ p ∈ m, p.1 < 0x1000 ∧ p.2 ≠ resetByte c p.1 := by
  simp [Memory.wf]

/-- An address above no listed one reads as reset left it. -/
theorem Memory.read_below {m : Memory} {a : Nat} (h : ∀ p ∈ m, a < p.1) : Memory.read c m a = resetByte c a := by
  induction m with
  | nil => rfl
  | cons p m ih =>
    have hp := h p (by simp)
    simp only [Memory.read]
    rw [if_neg (by omega), ih fun q hq => h q (by simp [hq])]

theorem Memory.read_insert (a : Nat) (b : Byte) (m : Memory) (k : Nat) :
    Memory.read c (Memory.insert a b m) k = if k = a then b else Memory.read c m k := by
  induction m with
  | nil => simp [Memory.insert, Memory.read, eq_comm]
  | cons p m ih =>
    simp only [Memory.insert]
    split
    · simp [Memory.read, eq_comm]
    · split
      · rename_i h
        subst h
        by_cases hk : k = p.1
        · simp [Memory.read, hk]
        · simp [Memory.read, hk, Ne.symm hk]
      · simp only [Memory.read, ih]
        by_cases hk : p.1 = k <;> by_cases ha : k = a <;> simp_all

theorem Memory.insert_mem {a : Nat} {b : Byte} {m : Memory} {p : Host.Cell} (h : p ∈ Memory.insert a b m) :
    p = (a, b) ∨ p ∈ m := by
  induction m with
  | nil => simpa [Memory.insert] using h
  | cons q m ih =>
    simp only [Memory.insert] at h
    split at h
    · simpa using h
    · split at h
      · simp only [List.mem_cons] at h ⊢; tauto
      · simp only [List.mem_cons] at h ⊢
        rcases h with h | h
        · simp [h]
        · rcases ih h with h | h <;> simp [h]

theorem Memory.erase_mem {a : Nat} {m : Memory} {p : Host.Cell} (h : p ∈ Memory.erase a m) : p ∈ m := by
  induction m with
  | nil => simp [Memory.erase] at h
  | cons q m ih =>
    simp only [Memory.erase] at h
    split at h
    · simp [h]
    · simp only [List.mem_cons] at h ⊢
      rcases h with h | h
      · simp [h]
      · simp [ih h]

theorem Memory.read_erase {a : Nat} {m : Memory} (hs : m.Pairwise (fun p q => p.1 < q.1)) (k : Nat) :
    Memory.read c (Memory.erase a m) k = if k = a then resetByte c a else Memory.read c m k := by
  induction m with
  | nil => simp only [Memory.erase, Memory.read]; split <;> simp_all
  | cons p m ih =>
    rw [List.pairwise_cons] at hs
    simp only [Memory.erase]
    split
    · rename_i h
      subst h
      simp only [Memory.read]
      by_cases hk : k = p.1
      · subst hk
        simp [Memory.read_below c hs.1]
      · simp [hk, Ne.symm hk]
    · rename_i h
      simp only [Memory.read, ih hs.2]
      by_cases hk : p.1 = k
      · subst hk; simp [h]
      · simp [hk]

/-- A read after a write: the byte written, at the address written, and every other byte as before (R55). -/
theorem Memory.read_write {m : Memory} (h : Memory.wf c m = true) (a : Nat) (b : Byte) (k : Nat) :
    Memory.read c (Memory.write c m a b) k = if k = a then b else Memory.read c m k := by
  rw [Memory.wf_iff] at h
  unfold Memory.write
  split
  · rename_i hb
    rw [Memory.read_erase c h.1, hb]
  · exact Memory.read_insert c a b m k

theorem Memory.insert_pairwise {a : Nat} {b : Byte} {m : Memory} (hs : m.Pairwise (fun p q => p.1 < q.1)) :
    (Memory.insert a b m).Pairwise (fun p q => p.1 < q.1) := by
  induction m with
  | nil => simp [Memory.insert]
  | cons p m ih =>
    have hs' := List.pairwise_cons.mp hs
    simp only [Memory.insert]
    split
    · rename_i h
      refine List.pairwise_cons.mpr ⟨fun q hq => ?_, hs⟩
      rcases List.mem_cons.mp hq with rfl | hq
      · exact h
      · exact Nat.lt_trans h (hs'.1 q hq)
    · split
      · rename_i h
        subst h
        exact List.pairwise_cons.mpr ⟨hs'.1, hs'.2⟩
      · refine List.pairwise_cons.mpr ⟨fun q hq => ?_, ih hs'.2⟩
        rcases Memory.insert_mem hq with rfl | hq
        · simp only; omega
        · exact hs'.1 q hq

theorem Memory.erase_pairwise {a : Nat} {m : Memory} (hs : m.Pairwise (fun p q => p.1 < q.1)) :
    (Memory.erase a m).Pairwise (fun p q => p.1 < q.1) := by
  induction m with
  | nil => simp [Memory.erase]
  | cons p m ih =>
    have hs' := List.pairwise_cons.mp hs
    simp only [Memory.erase]
    split
    · exact hs'.2
    · exact List.pairwise_cons.mpr ⟨fun q hq => hs'.1 q (Memory.erase_mem hq), ih hs'.2⟩

/-- A write inside the address space keeps the canonical form. -/
theorem Memory.write_wf {m : Memory} (h : Memory.wf c m = true) {a : Nat} (ha : a < 0x1000) (b : Byte) :
    Memory.wf c (Memory.write c m a b) = true := by
  rw [Memory.wf_iff] at h ⊢
  unfold Memory.write
  split
  · exact ⟨Memory.erase_pairwise h.1, fun p hp => h.2 p (Memory.erase_mem hp)⟩
  · rename_i hb
    refine ⟨Memory.insert_pairwise h.1, fun p hp => ?_⟩
    rcases Memory.insert_mem hp with rfl | hp
    · exact ⟨ha, hb⟩
    · exact h.2 p hp

theorem Memory.nil_wf : Memory.wf c [] = true := rfl

/-! ### The state's RAM -/

theorem State.ramByte_setRamByte {s : State} (h : Memory.wf s.cfg s.ram = true) (a : Nat) (b : Byte) (k : Nat) :
    (s.setRamByte a b).ramByte k = if k = a then b else s.ramByte k :=
  Memory.read_write s.cfg h a b k

/-- A write of bytes changes nothing but RAM. -/
theorem State.setRamBytes_eq (s : State) (l : List (Nat × Byte)) :
    s.setRamBytes l = s.setRam (s.setRamBytes l).ram := by
  induction l generalizing s with
  | nil => rfl
  | cons p l ih =>
    rw [State.setRamBytes, ih]
    rfl

theorem State.setRamBytes_wf {s : State} (h : Memory.wf s.cfg s.ram = true) {l : List (Nat × Byte)}
    (hl : ∀ p ∈ l, p.1 < 0x1000) : Memory.wf s.cfg (s.setRamBytes l).ram = true := by
  induction l generalizing s with
  | nil => exact h
  | cons p l ih =>
    exact ih (s := s.setRamByte p.1 p.2) (Memory.write_wf s.cfg h (hl p (by simp)) p.2)
      fun q hq => hl q (by simp [hq])

/-- A byte at no address written to reads as before. -/
theorem State.ramByte_setRamBytes_of_notMem {s : State} (h : Memory.wf s.cfg s.ram = true) {l : List (Nat × Byte)}
    (hl : ∀ p ∈ l, p.1 < 0x1000) {k : Nat} (hk : k ∉ l.map Prod.fst) :
    (s.setRamBytes l).ramByte k = s.ramByte k := by
  induction l generalizing s with
  | nil => rfl
  | cons p l ih =>
    simp only [List.map_cons, List.mem_cons, not_or] at hk
    have hw : Memory.wf (s.setRamByte p.1 p.2).cfg (s.setRamByte p.1 p.2).ram = true :=
      Memory.write_wf s.cfg h (hl p (by simp)) p.2
    rw [State.setRamBytes, ih hw (fun q hq => hl q (by simp [hq])) hk.2, State.ramByte_setRamByte h, if_neg hk.1]

/-- A byte written to, the addresses being distinct, reads as written. -/
theorem State.ramByte_setRamBytes_of_mem {s : State} (h : Memory.wf s.cfg s.ram = true) {l : List (Nat × Byte)}
    (hl : ∀ p ∈ l, p.1 < 0x1000) (hd : (l.map Prod.fst).Nodup) {k : Nat} {b : Byte} (hk : (k, b) ∈ l) :
    (s.setRamBytes l).ramByte k = b := by
  induction l generalizing s with
  | nil => simp at hk
  | cons p l ih =>
    rw [List.map_cons, List.nodup_cons] at hd
    have hw : Memory.wf (s.setRamByte p.1 p.2).cfg (s.setRamByte p.1 p.2).ram = true :=
      Memory.write_wf s.cfg h (hl p (by simp)) p.2
    have hl' : ∀ q ∈ l, q.1 < 0x1000 := fun q hq => hl q (by simp [hq])
    rcases List.mem_cons.mp hk with rfl | hk
    · rw [State.setRamBytes, State.ramByte_setRamBytes_of_notMem hw hl' hd.1, State.ramByte_setRamByte h, if_pos rfl]
    · exact ih hw hl' hd.2 hk

end Sys2Proof.Machine
end

