-- ==== Sys2Proof/Laws/Address.lean ====
section
/-! SUPPORT. The address check of R13 and R52: when it passes, which RAM indexes it gives, and which address it
reports. -/

namespace Sys2Proof.Machine

theorem addr_ok {p : OobPolicy} {a k : Nat} (h : addr p a = .ok k) : k = a % 0x1000 ∧ (a ≤ 0xFFF ∨ p = .mask) := by
  unfold addr at h
  split at h
  · rename_i ha
    cases h
    exact ⟨(Nat.mod_eq_of_lt (Nat.lt_succ_of_le ha)).symm, .inl ha⟩
  · split at h
    · cases h; simp
    · cases h

theorem addr_error {p : OobPolicy} {a e : Nat} (h : addr p a = .error e) : e = a ∧ 0xFFF < a ∧ p = .fault := by
  unfold addr at h
  split at h
  · cases h
  · split at h
    · cases h
    · rename_i ha _
      cases h
      exact ⟨rfl, Nat.lt_of_not_le ha, rfl⟩

theorem addr_of_ok {p : OobPolicy} {a : Nat} (h : a ≤ 0xFFF ∨ p = .mask) : addr p a = .ok (a % 0x1000) := by
  unfold addr
  split
  · rename_i ha
    rw [Nat.mod_eq_of_lt (Nat.lt_succ_of_le ha)]
  · rcases h with h | rfl
    · omega
    · rfl

theorem addr_of_error {a : Nat} (h : 0xFFF < a) : addr .fault a = .error a := by
  unfold addr
  rw [if_neg (by omega)]

/-- The RAM indexes of `n` bytes from address `a` on. -/
def ramIndexes (a n : Nat) : List Nat := (List.range n).map fun k => (a + k) % 0x1000

theorem ramIndexes_succ (a n : Nat) : ramIndexes a (n + 1) = a % 0x1000 :: ramIndexes (a + 1) n := by
  simp only [ramIndexes, List.range_succ_eq_map, List.map_cons, List.map_map, Nat.add_zero, List.cons.injEq, true_and]
  refine List.map_congr_left fun k _ => ?_
  simp only [Function.comp_apply, Nat.succ_eq_add_one]
  rw [Nat.add_right_comm, Nat.add_assoc]

theorem addrRange_of_ok {p : OobPolicy} {a n : Nat} (h : n = 0 ∨ a + n ≤ 0x1000 ∨ p = .mask) :
    addrRange p a n = .ok (ramIndexes a n) := by
  induction n generalizing a with
  | zero => rfl
  | succ n ih =>
    have h1 : addr p a = .ok (a % 0x1000) := by
      refine addr_of_ok ?_
      rcases h with h | h | h
      · omega
      · exact .inl (by omega)
      · exact .inr h
    have h2 : addrRange p (a + 1) n = .ok (ramIndexes (a + 1) n) := by
      refine ih ?_
      rcases h with h | h | h
      · omega
      · exact .inr (.inl (by omega))
      · exact .inr (.inr h)
    simp [addrRange, h1, h2, ramIndexes_succ]

theorem addrRange_of_error {a n : Nat} (hn : 0 < n) (h : 0x1000 < a + n) :
    addrRange .fault a n = .error (max a 0x1000) := by
  induction n generalizing a with
  | zero => omega
  | succ n ih =>
    by_cases ha : a ≤ 0xFFF
    · have h1 : addr .fault a = .ok (a % 0x1000) := addr_of_ok (Or.inl ha)
      by_cases hn' : n = 0
      · omega
      · have h2 := ih (a := a + 1) (by omega) (by omega)
        simp only [addrRange, h1, h2]
        congr 1
        omega
    · have h1 : addr .fault a = .error a := addr_of_error (by omega)
      simp only [addrRange, h1]
      congr 1
      omega

/-- All that the check of `n` addresses can answer. -/
theorem addrRange_cases (p : OobPolicy) (a n : Nat) :
    (addrRange p a n = .ok (ramIndexes a n) ∧ (n = 0 ∨ a + n ≤ 0x1000 ∨ p = .mask)) ∨
    (addrRange p a n = .error (max a 0x1000) ∧ 0 < n ∧ 0x1000 < a + n ∧ p = .fault) := by
  by_cases h : n = 0 ∨ a + n ≤ 0x1000 ∨ p = .mask
  · exact .inl ⟨addrRange_of_ok h, h⟩
  · have hp : p = .fault := by cases p <;> simp_all
    subst hp
    exact .inr ⟨addrRange_of_error (by omega) (by omega), by omega, by omega, rfl⟩

theorem addrRange_ok {p : OobPolicy} {a n : Nat} {ks : List Nat} (h : addrRange p a n = .ok ks) :
    ks = ramIndexes a n := by
  rcases addrRange_cases p a n with ⟨h', -⟩ | ⟨h', -⟩
  · rw [h] at h'; cases h'; rfl
  · rw [h] at h'; cases h'

theorem addrRange_error {p : OobPolicy} {a n e : Nat} (h : addrRange p a n = .error e) :
    e = max a 0x1000 ∧ 0 < n ∧ 0x1000 < a + n ∧ p = .fault := by
  rcases addrRange_cases p a n with ⟨h', -⟩ | ⟨h', h2⟩
  · rw [h] at h'; cases h'
  · rw [h] at h'; cases h'; exact ⟨rfl, h2⟩

@[simp] theorem ramIndexes_length (a n : Nat) : (ramIndexes a n).length = n := by simp [ramIndexes]

theorem ramIndexes_lt {a n k : Nat} (h : k ∈ ramIndexes a n) : k < 0x1000 := by
  simp only [ramIndexes, List.mem_map] at h
  omega

theorem ramIndexes_getElem {a n j : Nat} (h : j < (ramIndexes a n).length) :
    (ramIndexes a n)[j] = (a + j) % 0x1000 := by simp [ramIndexes]

/-- No two of fewer than 4097 consecutive addresses are the same RAM cell. -/
theorem ramIndexes_nodup {a n : Nat} (h : n ≤ 0x1000) : (ramIndexes a n).Nodup := by
  unfold ramIndexes
  rw [List.nodup_map_iff_inj_on List.nodup_range]
  intro i hi j hj hij
  rw [List.mem_range] at hi hj
  omega

/-- All that a fetch can answer (R63). -/
theorem State.fetch_cases (s : State) :
    (s.fetch = .ok (wordOfBytes (s.ramByte (s.pc.toNat % 0x1000)) (s.ramByte ((s.pc.toNat + 1) % 0x1000))) ∧
      (s.pc.toNat + 1 ≤ 0xFFF ∨ s.cfg.oobPolicy = .mask)) ∨
    (s.fetch = .error (max s.pc.toNat 0x1000) ∧ 0xFFF < s.pc.toNat + 1 ∧ s.cfg.oobPolicy = .fault) := by
  by_cases h : s.pc.toNat + 1 ≤ 0xFFF ∨ s.cfg.oobPolicy = .mask
  · refine .inl ⟨?_, h⟩
    have h0 : s.pc.toNat ≤ 0xFFF ∨ s.cfg.oobPolicy = .mask := h.imp_left (by omega)
    rw [State.fetch, addr_of_ok h0, addr_of_ok h]
  · have hp : s.cfg.oobPolicy = .fault := by cases hq : s.cfg.oobPolicy <;> simp_all
    refine .inr ⟨?_, by omega, hp⟩
    rw [State.fetch, hp]
    by_cases ha : s.pc.toNat ≤ 0xFFF
    · rw [addr_of_ok (Or.inl ha), addr_of_error (by omega)]
      simp only
      congr 1
      omega
    · rw [addr_of_error (by omega)]
      simp only
      congr 1
      omega

end Sys2Proof.Machine
end

