-- ==== Sys2Proof/Laws/Exec.lean ====
section
/-! SUPPORT. What an instruction can do, once: it answers a next state, in which either the host's part of the state
is as before or the instruction raised a fault (`exec_cases`). -/

namespace Sys2Proof.Machine

@[simp] theorem Framebuffer.pixel_clear (x y : Nat) : Framebuffer.clear.pixel x y = false := by
  simp only [Framebuffer.pixel, Framebuffer.clear]
  by_cases h : y < 32 <;> simp [h]

@[simp] theorem SameHost.refl (s : State) : Part.Same s s .host := by simp [Part.Same]

theorem SameHost.trans {s t u : State} (h : Part.Same s t .host) (h' : Part.Same t u .host) : Part.Same s u .host := by
  simp only [Part.Same] at *
  simp_all

theorem State.skipIf_host (s : State) (b : Bool) : Part.Same s (s.skipIf b) .host := by
  cases b <;> simp [State.skipIf, Part.Same]

theorem State.setLogicResult_host (s : State) (x : Reg) (r : Byte) : Part.Same s (s.setLogicResult x r) .host := by
  unfold State.setLogicResult
  split <;> simp [Part.Same]

theorem State.advanceI_host (s : State) (x : Reg) : Part.Same s (s.advanceI x) .host := by
  unfold State.advanceI
  split <;> simp [Part.Same]

theorem State.setRamBytes_host (s : State) (l : List (Nat × Byte)) : Part.Same s (s.setRamBytes l) .host := by
  rw [State.setRamBytes_eq]
  simp [Part.Same]

theorem State.setVs_host (s : State) (k : Nat) (l : List Byte) : Part.Same s (s.setVs k l) .host := by
  induction l generalizing s k with
  | nil => simp [State.setVs]
  | cons b l ih =>
    rw [State.setVs]
    refine SameHost.trans ?_ (ih _ _)
    split <;> simp [Part.Same]

theorem State.advance_host (s : State) : Part.Same s s.advance .host := by simp [Part.Same]

/-- What `withData` answers: DATA_ADDRESS with the lowest address above 0xFFF, or the body on the RAM indexes (R118). -/
theorem State.withData_cases (s : State) (n : Nat) (k : List Nat → State) :
    (s.withData n k = k (ramIndexes s.i.toNat n) ∧
      (n = 0 ∨ s.i.toNat + n ≤ 0x1000 ∨ s.cfg.oobPolicy = .mask)) ∨
    (s.withData n k = s.raiseFault .dataAddress (max s.i.toNat 0x1000) ∧ 0 < n ∧ 0x1000 < s.i.toNat + n ∧
      s.cfg.oobPolicy = .fault) := by
  unfold State.withData State.dataAddrs
  rcases addrRange_cases s.cfg.oobPolicy s.i.toNat n with ⟨h, h'⟩ | ⟨h, h'⟩
  · rw [h]; exact .inl ⟨rfl, h'⟩
  · rw [h]; exact .inr ⟨rfl, h'⟩

theorem State.withData_host (s : State) (n : Nat) {k : List Nat → State}
    (hk : ∀ ks, Part.Same s (k ks) .host) :
    Part.Same s (s.withData n k) .host ∨
      s.withData n k = s.raiseFault .dataAddress (max s.i.toNat 0x1000) := by
  rcases s.withData_cases n k with ⟨h, -⟩ | ⟨h, -⟩
  · exact .inl (h ▸ hk _)
  · exact .inr h

theorem execDrw_host (x y : Reg) (n : BitVec 4) (s : State) :
    ∃ t, execDrw x y n s = .next t ∧
      (Part.Same s t .host ∨ t = s.raiseFault .dataAddress (max s.i.toNat 0x1000)) :=
  ⟨_, rfl, s.withData_host _ fun ks => by simp [Part.Same]⟩

theorem execLdBVx_host (x : Reg) (s : State) :
    ∃ t, execLdBVx x s = .next t ∧
      (Part.Same s t .host ∨ t = s.raiseFault .dataAddress (max s.i.toNat 0x1000)) :=
  ⟨_, rfl, s.withData_host _ fun _ => SameHost.trans s.advance_host (State.setRamBytes_host _ _)⟩

theorem execLdMemVx_host (x : Reg) (s : State) :
    ∃ t, execLdMemVx x s = .next t ∧
      (Part.Same s t .host ∨ t = s.raiseFault .dataAddress (max s.i.toNat 0x1000)) :=
  ⟨_, rfl, s.withData_host _ fun _ =>
    SameHost.trans (SameHost.trans s.advance_host (State.setRamBytes_host _ _)) (State.advanceI_host _ _)⟩

theorem execLdVxMem_host (x : Reg) (s : State) :
    ∃ t, execLdVxMem x s = .next t ∧
      (Part.Same s t .host ∨ t = s.raiseFault .dataAddress (max s.i.toNat 0x1000)) :=
  ⟨_, rfl, s.withData_host _ fun _ =>
    SameHost.trans (SameHost.trans s.advance_host (State.setVs_host _ _ _)) (State.advanceI_host _ _)⟩

theorem execLdVxK_host (x : Reg) (s : State) : ∃ t, execLdVxK x s = .next t ∧ Part.Same s t .host := by
  refine ⟨_, rfl, ?_⟩
  cases s.kwPhase
  · cases s.lowestHeld <;> simp [Part.Same]
  · simp only
    split <;> simp [Part.Same]

/-- The instructions that can raise a fault (R122). -/
def Instr.mayFault : Instr → Bool
  | .ret | .call _ | .drwVxVyN _ _ _ | .ldBVx _ | .ldMemVx _ | .ldVxMem _ => true
  | _ => false

/-- What a fault of instruction `i` looks like, `s` being the state before it (R119, R118). -/
def FaultOf (i : Instr) (s t : State) : Prop :=
  (i = .ret ∧ s.sp = 0 ∧ t = s.raiseFault .stackUnderflow 0) ∨
  (∃ nnn, i = .call nnn ∧ s.cfg.depth ≤ s.sp ∧ t = s.raiseFault .stackOverflow 0) ∨
  (Instr.mayFault i = true ∧ t = s.raiseFault .dataAddress (max s.i.toNat 0x1000))

/-- An instruction answers a next state: the host's part of it is as before, or it is the instruction's fault. -/
theorem exec_cases (i : Instr) (s : State) :
    ∃ t, exec i s = .next t ∧ (Part.Same s t .host ∨ FaultOf i s t) := by
  have lift : ∀ {i : Instr}, Instr.mayFault i = true →
      (∃ t, exec i s = .next t ∧ (Part.Same s t .host ∨ t = s.raiseFault .dataAddress (max s.i.toNat 0x1000))) →
      ∃ t, exec i s = .next t ∧ (Part.Same s t .host ∨ FaultOf i s t) := fun hm ⟨t, ht, h⟩ =>
    ⟨t, ht, h.imp_right fun h => .inr (.inr ⟨hm, h⟩)⟩
  cases i
  case ret =>
    refine ⟨_, rfl, ?_⟩
    by_cases h : s.sp = 0
    · exact .inr (.inl ⟨rfl, h, if_pos h⟩)
    · rw [if_neg h]; left; simp [Part.Same]
  case call nnn =>
    refine ⟨_, rfl, ?_⟩
    by_cases h : s.cfg.depth ≤ s.sp
    · exact .inr (.inr (.inl ⟨nnn, rfl, h, if_pos h⟩))
    · rw [if_neg h]; left; simp [Part.Same]
  case drwVxVyN x y n => exact lift rfl (execDrw_host x y n s)
  case ldBVx x => exact lift rfl (execLdBVx_host x s)
  case ldMemVx x => exact lift rfl (execLdMemVx_host x s)
  case ldVxMem x => exact lift rfl (execLdVxMem_host x s)
  case ldVxK x =>
    obtain ⟨t, ht, h⟩ := execLdVxK_host x s
    exact ⟨t, ht, .inl h⟩
  case orVxVy x y => exact ⟨_, rfl, .inl (SameHost.trans s.advance_host (State.setLogicResult_host _ _ _))⟩
  case andVxVy x y => exact ⟨_, rfl, .inl (SameHost.trans s.advance_host (State.setLogicResult_host _ _ _))⟩
  case xorVxVy x y => exact ⟨_, rfl, .inl (SameHost.trans s.advance_host (State.setLogicResult_host _ _ _))⟩
  case seVxNn x nn => exact ⟨_, rfl, .inl (SameHost.trans s.advance_host (State.skipIf_host _ _))⟩
  case sneVxNn x nn => exact ⟨_, rfl, .inl (SameHost.trans s.advance_host (State.skipIf_host _ _))⟩
  case seVxVy x y => exact ⟨_, rfl, .inl (SameHost.trans s.advance_host (State.skipIf_host _ _))⟩
  case sneVxVy x y => exact ⟨_, rfl, .inl (SameHost.trans s.advance_host (State.skipIf_host _ _))⟩
  case skpVx x => exact ⟨_, rfl, .inl (SameHost.trans s.advance_host (State.skipIf_host _ _))⟩
  case sknpVx x => exact ⟨_, rfl, .inl (SameHost.trans s.advance_host (State.skipIf_host _ _))⟩
  all_goals exact ⟨_, rfl, .inl (by simp [Part.Same])⟩

/-- A fault of an instruction is taken by `raiseFault`, with a code of R36 and no other effect. -/
theorem FaultOf.taken {i : Instr} {s t : State} (h : FaultOf i s t) :
    ∃ c a, t = s.raiseFault c a ∧ Instr.mayFault i = true := by
  rcases h with ⟨rfl, -, h⟩ | ⟨nnn, rfl, -, h⟩ | ⟨hm, h⟩
  · exact ⟨_, _, h, rfl⟩
  · exact ⟨_, _, h, rfl⟩
  · exact ⟨_, _, h, hm⟩

end Sys2Proof.Machine
end

