-- ==== Sys2Proof/Laws/Blit.lean ====
section
/-! SUPPORT. The blitter: pixels after an XOR, and the drawing loops summed up (`blitRow_spec`, `blitRows_spec`): each
pixel is XORed once with the bit that falls on it, and the collision is some lit pixel under a 1 bit. -/

namespace Sys2Proof.Machine

/-- A pixel after an XOR at (x, y), inside the screen. -/
theorem Framebuffer.pixel_xorPixel (f : Framebuffer) {x y : Nat} (hx : x < 64) (hy : y < 32) (bit : Bool)
    (px py : Nat) :
    (f.xorPixel x y bit).pixel px py = (f.pixel px py ^^ (bit && decide (px = x ∧ py = y))) := by
  by_cases h : py = y
  · subst h
    simp only [Framebuffer.pixel, Framebuffer.xorPixel, Vector.getElem?_setIfInBounds, if_pos hy,
      Option.getD_some, BitVec.getLsbD_xor, if_true, and_true]
    cases bit
    · simp
    · simp only [if_true, Bool.true_and, BitVec.getLsbD_shiftLeft, BitVec.getLsbD_one]
      by_cases hp : px = x
      · subst hp; simp [hx]
      · by_cases hlt : px < x
        · simp [hp, hlt]
        · have : px - x ≠ 0 := by omega
          simp [hp, this]
  · simp [Framebuffer.pixel, Framebuffer.xorPixel, Ne.symm h, h]

/-- Framebuffers with the same pixels are equal. -/
theorem Framebuffer.ext_pixel {f g : Framebuffer} (h : ∀ x y, x < 64 → y < 32 → f.pixel x y = g.pixel x y) : f = g := by
  apply Vector.ext
  intro y hy
  apply BitVec.eq_of_getLsbD_eq
  intro x hx
  simpa [Framebuffer.pixel, hy] using h x y hx hy

/-- The bit of a row's byte that falls on column `px`, from sprite column `col` on. -/
def rowBit (byte : Byte) (x0 col px : Nat) : Bool :=
  decide (x0 + col ≤ px ∧ px < x0 + 8 ∧ px < 64) && byte.getLsbD (7 - (px - x0))

/-- The next `n` columns, the last being sprite column 7. -/
theorem blitRow_spec (byte : Byte) (x0 : Nat) {y : Nat} (hy : y < 32) :
    ∀ (n col : Nat) (b : Blit), col + n = 8 →
      (∀ px py, (blitRow byte x0 y n col b).fb.pixel px py =
        (b.fb.pixel px py ^^ (rowBit byte x0 col px && decide (py = y)))) ∧
      ((blitRow byte x0 y n col b).hit = true ↔
        b.hit = true ∨ ∃ px, rowBit byte x0 col px = true ∧ b.fb.pixel px y = true) := by
  intro n
  induction n with
  | zero =>
    intro col b hn
    have h0 : ∀ px, rowBit byte x0 col px = false := by
      intro px
      simp only [rowBit, Bool.and_eq_false_imp, decide_eq_true_eq]
      omega
    simp [blitRow, h0]
  | succ n ih =>
    intro col b hn
    unfold blitRow
    split
    · rename_i hc
      have h0 : ∀ px, rowBit byte x0 col px = false := by
        intro px
        simp only [rowBit, Bool.and_eq_false_imp, decide_eq_true_eq]
        omega
      simp [h0]
    · rename_i hc
      have hx : x0 + col < 64 := by omega
      obtain ⟨ih1, ih2⟩ := ih (col + 1) (blitPixel (x0 + col) y (byte.getLsbD (7 - col)) b) (by omega)
      have hsplit : ∀ px, rowBit byte x0 col px =
          (rowBit byte x0 (col + 1) px || (byte.getLsbD (7 - col) && decide (px = x0 + col))) := by
        intro px
        by_cases hp : px = x0 + col
        · subst hp
          have h1 : x0 + col - x0 = col := by omega
          have h2 : x0 + col < x0 + 8 := by omega
          simp [rowBit, h1, h2, hx]
        · have h1 : (x0 + col ≤ px) ↔ (x0 + (col + 1) ≤ px) := by omega
          simp [rowBit, hp, h1]
      have hdisj : rowBit byte x0 (col + 1) (x0 + col) = false := by
        simp only [rowBit, Bool.and_eq_false_imp, decide_eq_true_eq]
        omega
      constructor
      · intro px py
        rw [ih1, blitPixel, Framebuffer.pixel_xorPixel _ hx hy, hsplit]
        by_cases hp : px = x0 + col
        · subst hp
          rw [hdisj]
          by_cases hq : py = y <;> simp [hq]
        · by_cases hq : py = y <;> simp [hp, hq]
      · rw [ih2]
        simp only [blitPixel, Bool.or_eq_true, Bool.and_eq_true, Framebuffer.pixel_xorPixel _ hx hy]
        constructor
        · rintro ((h | ⟨h, h'⟩) | ⟨px, h, h'⟩)
          · exact .inl h
          · exact .inr ⟨x0 + col, by rw [hsplit, hdisj]; simpa using h, h'⟩
          · refine .inr ⟨px, by rw [hsplit, h]; rfl, ?_⟩
            have hp : px ≠ x0 + col := by rintro rfl; rw [hdisj] at h; cases h
            simpa [hp] using h'
        · rintro (h | ⟨px, h, h'⟩)
          · exact .inl (.inl h)
          · by_cases hp : px = x0 + col
            · subst hp
              rw [hsplit, hdisj] at h
              exact .inl (.inr ⟨by simpa using h, h'⟩)
            · refine .inr ⟨px, ?_, ?_⟩
              · rw [hsplit] at h; simpa [hp] using h
              · simpa [hp] using h'

/-- The bit that the rows `bytes`, the first of them at row `y0`, put on pixel (px, py). -/
def rowsBit (bytes : List Byte) (x0 y0 px py : Nat) : Bool :=
  decide (y0 ≤ py) && rowBit ((bytes[py - y0]?).getD 0) x0 0 px

theorem rowBit_zero (x0 col px : Nat) : rowBit 0#8 x0 col px = false := by simp [rowBit]

/-- All the rows, none of them below the screen. -/
theorem blitRows_spec (x0 : Nat) :
    ∀ (bytes : List Byte) (y0 : Nat) (b : Blit), y0 + bytes.length ≤ 32 →
      (∀ px py, (blitRows x0 y0 bytes b).fb.pixel px py = (b.fb.pixel px py ^^ rowsBit bytes x0 y0 px py)) ∧
      ((blitRows x0 y0 bytes b).hit = true ↔
        b.hit = true ∨ ∃ px py, rowsBit bytes x0 y0 px py = true ∧ b.fb.pixel px py = true) := by
  intro bytes
  induction bytes with
  | nil => intro y0 b _; simp [blitRows, rowsBit, rowBit_zero]
  | cons byte bytes ih =>
    intro y0 b hl
    rw [List.length_cons] at hl
    obtain ⟨r1, r2⟩ := blitRow_spec byte x0 (y := y0) (by omega) 8 0 b (by omega)
    obtain ⟨ih1, ih2⟩ := ih (y0 + 1) (blitRow byte x0 y0 8 0 b) (by omega)
    have hsplit : ∀ px py, rowsBit (byte :: bytes) x0 y0 px py =
        (rowsBit bytes x0 (y0 + 1) px py || (rowBit byte x0 0 px && decide (py = y0))) := by
      intro px py
      by_cases hp : py = y0
      · subst hp; simp [rowsBit]
      · by_cases hlt : y0 ≤ py
        · have h1 : py - y0 = (py - (y0 + 1)) + 1 := by omega
          have h2 : y0 + 1 ≤ py := by omega
          simp [rowsBit, hp, hlt, h1, h2]
        · have h2 : ¬ y0 + 1 ≤ py := by omega
          simp [rowsBit, hp, hlt, h2]
    have hdisj : ∀ px, rowsBit bytes x0 (y0 + 1) px y0 = false := by intro px; simp [rowsBit]
    constructor
    · intro px py
      rw [blitRows, ih1, r1, hsplit]
      by_cases hp : py = y0
      · subst hp; rw [hdisj]; simp
      · simp [hp]
    · rw [blitRows, ih2, r2]
      constructor
      · rintro ((h | ⟨px, h, h'⟩) | ⟨px, py, h, h'⟩)
        · exact .inl h
        · exact .inr ⟨px, y0, by rw [hsplit, h]; simp, h'⟩
        · refine .inr ⟨px, py, by rw [hsplit, h]; rfl, ?_⟩
          have hp : py ≠ y0 := by rintro rfl; rw [hdisj] at h; cases h
          rw [r1] at h'; simpa [hp] using h'
      · rintro (h | ⟨px, py, h, h'⟩)
        · exact .inl (.inl h)
        · by_cases hp : py = y0
          · subst hp
            rw [hsplit, hdisj] at h
            exact .inl (.inr ⟨px, by simpa using h, h'⟩)
          · refine .inr ⟨px, py, ?_, ?_⟩
            · rw [hsplit] at h; simpa [hp] using h
            · rw [r1]; simpa [hp] using h'

theorem rowsBit_inside {bytes : List Byte} {x0 y0 px py : Nat} (h : rowsBit bytes x0 y0 px py = true)
    (hl : y0 + bytes.length ≤ 32) : px < 64 ∧ py < 32 := by
  simp only [rowsBit, rowBit, Bool.and_eq_true, decide_eq_true_eq] at h
  refine ⟨h.2.1.2.2, ?_⟩
  by_contra hc
  have hn : bytes[py - y0]? = none := by
    rw [List.getElem?_eq_none_iff]
    omega
  simp [hn] at h

/-- The bits of the fetched rows are the sprite bits of R104 to R106. -/
theorem State.rowsBit_eq_spriteBit (s : State) (x y : Reg) (n : BitVec 4) {px py : Nat} (hx : px < 64) (hy : py < 32) :
    rowsBit ((s.dataIndexes (s.spriteRows y n)).map s.ramByte) (s.originX x) (s.originY y) px py =
      s.spriteBit x y n px py := by
  unfold rowsBit State.spriteBit State.inRegion rowBit
  by_cases h : s.originY y ≤ py
  · simp only [h, decide_true, Bool.true_and, true_and]
    by_cases h2 : py < min (s.originY y + n.toNat) 32
    · have h3 : py - s.originY y < s.spriteRows y n := by unfold State.spriteRows; omega
      simp [State.dataIndexes, h3, h2, hx]
    · have h4 : s.spriteRows y n ≤ py - s.originY y := by unfold State.spriteRows; omega
      simp [State.dataIndexes, h4, h2]
  · simp [h]

theorem State.spriteRows_fit (s : State) (y : Reg) (n : BitVec 4) : s.originY y + s.spriteRows y n ≤ 32 := by
  have : s.originY y < 32 := Nat.mod_lt _ (by omega)
  unfold State.spriteRows
  omega

end Sys2Proof.Machine
end

