-- ==== Sys2Proof/Laws/Encoding.lean ====
section
/-! SUPPORT. The fields of a word and the three formats as numbers, and each format's fields (R61). -/

namespace Sys2Proof

theorem fieldOp_toNat (w : Word) : (fieldOp w).toNat = w.toNat / 4096 := by
  have := w.isLt
  rw [fieldOp, BitVec.extractLsb'_toNat, Nat.shiftRight_eq_div_pow]
  omega

theorem fieldX_val (w : Word) : (fieldX w).val = w.toNat / 256 % 16 := by
  rw [fieldX, BitVec.val_toFin, BitVec.extractLsb'_toNat, Nat.shiftRight_eq_div_pow]

theorem fieldY_val (w : Word) : (fieldY w).val = w.toNat / 16 % 16 := by
  rw [fieldY, BitVec.val_toFin, BitVec.extractLsb'_toNat, Nat.shiftRight_eq_div_pow]

theorem fieldN_toNat (w : Word) : (fieldN w).toNat = w.toNat % 16 := by
  rw [fieldN, BitVec.extractLsb'_toNat, Nat.shiftRight_eq_div_pow]
  omega

theorem fieldNN_toNat (w : Word) : (fieldNN w).toNat = w.toNat % 256 := by
  rw [fieldNN, BitVec.extractLsb'_toNat, Nat.shiftRight_eq_div_pow]
  omega

theorem fieldNNN_toNat (w : Word) : (fieldNNN w).toNat = w.toNat % 4096 := by
  rw [fieldNNN, BitVec.extractLsb'_toNat, Nat.shiftRight_eq_div_pow]
  omega

theorem nibble_toNat (x : Reg) : (nibble x).toNat = x.val := rfl

/-- A concatenation as a number. -/
theorem append_toNat {a b : Nat} (u : BitVec a) (l : BitVec b) : (u ++ l).toNat = u.toNat * 2 ^ b + l.toNat := by
  rw [BitVec.toNat_append, ← Nat.shiftLeft_add_eq_or_of_lt l.isLt, Nat.shiftLeft_eq]

theorem formNnn_toNat (op : BitVec 4) (nnn : BitVec 12) : (formNnn op nnn).toNat = 4096 * op.toNat + nnn.toNat := by
  rw [formNnn, append_toNat]
  omega

theorem formXNn_toNat (op : BitVec 4) (x : Reg) (nn : Byte) :
    (formXNn op x nn).toNat = 4096 * op.toNat + 256 * x.val + nn.toNat := by
  rw [formXNn, append_toNat (a := 8) (b := 8), append_toNat, nibble_toNat]
  omega

theorem formXYN_toNat (op : BitVec 4) (x y : Reg) (n : BitVec 4) :
    (formXYN op x y n).toNat = 4096 * op.toNat + 256 * x.val + 16 * y.val + n.toNat := by
  rw [formXYN, append_toNat (a := 8) (b := 8), append_toNat, append_toNat, nibble_toNat, nibble_toNat]
  omega

/-! ### A word is made of its fields -/

theorem formNnn_fields (w : Word) : formNnn (fieldOp w) (fieldNNN w) = w := by
  apply BitVec.eq_of_toNat_eq
  rw [formNnn_toNat, fieldOp_toNat, fieldNNN_toNat]
  omega

theorem formXNn_fields (w : Word) : formXNn (fieldOp w) (fieldX w) (fieldNN w) = w := by
  apply BitVec.eq_of_toNat_eq
  rw [formXNn_toNat, fieldOp_toNat, fieldX_val, fieldNN_toNat]
  omega

theorem formXYN_fields (w : Word) : formXYN (fieldOp w) (fieldX w) (fieldY w) (fieldN w) = w := by
  apply BitVec.eq_of_toNat_eq
  rw [formXYN_toNat, fieldOp_toNat, fieldX_val, fieldY_val, fieldN_toNat]
  omega

/-! ### The fields of a format -/

@[simp] theorem fieldOp_formNnn (op : BitVec 4) (nnn : BitVec 12) : fieldOp (formNnn op nnn) = op := by
  apply BitVec.eq_of_toNat_eq
  rw [fieldOp_toNat, formNnn_toNat]
  omega

@[simp] theorem fieldOp_formXNn (op : BitVec 4) (x : Reg) (nn : Byte) : fieldOp (formXNn op x nn) = op := by
  apply BitVec.eq_of_toNat_eq
  rw [fieldOp_toNat, formXNn_toNat]
  omega

@[simp] theorem fieldOp_formXYN (op : BitVec 4) (x y : Reg) (n : BitVec 4) : fieldOp (formXYN op x y n) = op := by
  apply BitVec.eq_of_toNat_eq
  rw [fieldOp_toNat, formXYN_toNat]
  omega

@[simp] theorem fieldNNN_formNnn (op : BitVec 4) (nnn : BitVec 12) : fieldNNN (formNnn op nnn) = nnn := by
  apply BitVec.eq_of_toNat_eq
  rw [fieldNNN_toNat, formNnn_toNat]
  omega

@[simp] theorem fieldX_formXNn (op : BitVec 4) (x : Reg) (nn : Byte) : fieldX (formXNn op x nn) = x := by
  apply Fin.ext
  rw [fieldX_val, formXNn_toNat]
  omega

@[simp] theorem fieldNN_formXNn (op : BitVec 4) (x : Reg) (nn : Byte) : fieldNN (formXNn op x nn) = nn := by
  apply BitVec.eq_of_toNat_eq
  rw [fieldNN_toNat, formXNn_toNat]
  omega

@[simp] theorem fieldX_formXYN (op : BitVec 4) (x y : Reg) (n : BitVec 4) : fieldX (formXYN op x y n) = x := by
  apply Fin.ext
  rw [fieldX_val, formXYN_toNat]
  omega

@[simp] theorem fieldY_formXYN (op : BitVec 4) (x y : Reg) (n : BitVec 4) : fieldY (formXYN op x y n) = y := by
  apply Fin.ext
  rw [fieldY_val, formXYN_toNat]
  omega

@[simp] theorem fieldN_formXYN (op : BitVec 4) (x y : Reg) (n : BitVec 4) : fieldN (formXYN op x y n) = n := by
  apply BitVec.eq_of_toNat_eq
  rw [fieldN_toNat, formXYN_toNat]
  omega

end Sys2Proof
end

