-- ==== Sys2Proof/Laws/Operands.lean ====
section
/-! SUPPORT. What each operand form, flag write and data access does, once, for later proofs to cite. -/

namespace Sys2Proof.Machine

/-! ### Frames -/

theorem SameExcept.mono {ps qs : List Part} {s t : State} (h : SameExcept ps s t) (hq : ps ⊆ qs) : SameExcept qs s t :=
  fun p hp => h p fun h' => hp (hq h')

theorem SameExcept.trans {ps : List Part} {s t u : State} (h : SameExcept ps s t) (h' : SameExcept ps t u) :
    SameExcept ps s u := by
  intro p hp
  have a := h p hp
  have b := h' p hp
  cases p <;> simp_all [Part.Same]

theorem State.advance_same (s : State) : SameExcept [.pc] s s.advance := by
  intro p hp
  cases p <;> simp_all [Part.Same]

theorem State.setRamBytes_same (s : State) (l : List (Nat × Byte)) : SameExcept [.ram] s (s.setRamBytes l) := by
  rw [State.setRamBytes_eq]
  intro p hp
  cases p <;> simp_all [Part.Same]

/-! ### Operands -/

/-- The key that `V[x]` names (R71). -/
theorem State.keyOf_val (s : State) (x : Reg) : (s.keyOf x).val = (s.getV x).toNat % 16 := by
  rw [State.keyOf, BitVec.val_toFin, BitVec.extractLsb'_toNat]
  simp

/-- The glyph address that `V[x]` names (R71). -/
theorem State.glyphAddr_toNat (s : State) (x : Reg) : (s.glyphAddr x).toNat = (s.getV x).toNat % 16 * 5 := by
  have h : (s.getV x).toNat &&& 15 = (s.getV x).toNat % 16 := Nat.and_two_pow_sub_one_eq_mod _ 4
  have e : (s.glyphAddr x).toNat = ((s.getV x).toNat % 65536 &&& 15) * 5 % 65536 := by simp [State.glyphAddr]
  rw [e, Nat.mod_eq_of_lt (by omega : (s.getV x).toNat < 65536), h]
  omega

theorem zext16_toNat (nnn : BitVec 12) : (zext16 nnn).toNat = nnn.toNat := by
  simp only [zext16, BitVec.toNat_setWidth]
  omega

/-- No key is held. -/
theorem State.lowestHeld_none {s : State} (h : ∀ k : KeyIndex, s.key.getLsbD k = false) : s.lowestHeld = none := by
  simp only [State.lowestHeld, List.find?_eq_none]
  intro k _
  simpa [State.keyHeld] using h k

/-- `k` is the lowest held key. -/
theorem State.lowestHeld_some {s : State} {k : KeyIndex} (hk : s.key.getLsbD k = true)
    (hj : ∀ j : KeyIndex, j < k → s.key.getLsbD j = false) : s.lowestHeld = some k := by
  rw [State.lowestHeld, List.find?_eq_some_iff_getElem]
  refine ⟨hk, k.val, by simp, by simp, fun j hlt => ?_⟩
  have := hj ⟨j, by omega⟩ hlt
  simpa [State.keyHeld] using this

/-- The bytes of `V[k], V[k + 1], …` after they are written. -/
theorem State.getV_setVs (s : State) (l : List Byte) (k : Nat) (hk : k + l.length ≤ 16) (z : Reg) :
    (s.setVs k l).getV z = if h : k ≤ z.val ∧ z.val < k + l.length then l[z.val - k] else s.getV z := by
  induction l generalizing s k with
  | nil => rw [dif_neg (by simp), State.setVs]
  | cons b l ih =>
    rw [List.length_cons] at hk
    rw [State.setVs, ih _ _ (by omega), dif_pos (show k < 16 by omega)]
    by_cases h1 : k + 1 ≤ z.val ∧ z.val < k + 1 + l.length
    · rw [dif_pos h1, dif_pos (by rw [List.length_cons]; omega)]
      have : z.val - k = z.val - (k + 1) + 1 := by omega
      simp [this]
    · rw [dif_neg h1]
      by_cases h2 : z.val = k
      · rw [dif_pos (by rw [List.length_cons]; omega)]
        simp [h2, Fin.ext_iff]
      · rw [dif_neg (by rw [List.length_cons]; omega)]
        simp [Fin.ext_iff, Ne.symm h2]

theorem State.setVs_same (s : State) (l : List Byte) (k : Nat) : SameExcept [.v] s (s.setVs k l) := by
  induction l generalizing s k with
  | nil => intro p hp; cases p <;> simp_all [State.setVs, Part.Same]
  | cons b l ih =>
    rw [State.setVs]
    refine SameExcept.trans ?_ (ih _ _)
    intro p hp
    split <;> cases p <;> simp_all [Part.Same]

/-- I after FX55 and FX65 (R115, R116). -/
theorem State.advanceI_toNat (s : State) (x : Reg) :
    (s.advanceI x).i.toNat =
      if s.cfg.quirk = .chip8 then (s.i.toNat + x.val + 1) % 2 ^ 16 else s.i.toNat := by
  unfold State.advanceI
  split <;> simp [Nat.add_assoc]

theorem State.advanceI_same (s : State) (x : Reg) : SameExcept [.i] s (s.advanceI x) := by
  unfold State.advanceI
  intro p hp
  split <;> cases p <;> simp_all [Part.Same]

/-! ### Flags (R21) -/

theorem flagByte_toNat (b : Bool) : (flagByte b).toNat = if b then 1 else 0 := by cases b <;> rfl

/-- A result and its flag: the flag wins where X = F, and nothing else of the registers changes. -/
theorem State.setResultFlag_spec (s : State) (x : Reg) (r : Byte) (b : Bool) :
    (x ≠ 0xF → (s.setResultFlag x r b).getV x = r) ∧ (s.setResultFlag x r b).getV 0xF = flagByte b ∧
      SameRegsExcept [x, 0xF] s (s.setResultFlag x r b) ∧ SameExcept [.v] s (s.setResultFlag x r b) := by
  refine ⟨fun hx => by simp [Ne.symm hx], by simp, ?_, ?_⟩
  · intro z hz
    simp only [List.mem_cons, List.not_mem_nil, or_false, not_or] at hz
    simp [Ne.symm hz.1, Ne.symm hz.2]
  · intro p hp
    cases p <;> simp_all [Part.Same]

/-! ### The call stack -/

theorem Config.depth_le (c : Config) : c.depth ≤ 16 := by
  unfold Config.depth
  cases c.stackDepth <;> decide

/-- IPF fits its field (R38). -/
theorem Config.ipf_lt (c : Config) : c.ipf < 2 ^ 32 := by
  have := c.instsPerSecond.isLt
  unfold Config.ipf
  omega

@[simp] theorem Config.ipfBits_toNat (c : Config) : c.ipfBits.toNat = c.ipf := by
  rw [Config.ipfBits, BitVec.toNat_ofNat, Nat.mod_eq_of_lt (Config.ipf_lt c)]

/-- The slots after a push. -/
theorem State.slot_push (s : State) (a : Word) (h : s.sp < 16) (k : Nat) :
    (s.push a).slot k = if k = s.sp then a else s.slot k := by
  simp only [State.slot, State.push_stack, Vector.getElem?_setIfInBounds, h]
  by_cases hk : s.sp = k
  · simp [hk]
  · simp [hk, Ne.symm hk]

/-! ### Data accesses (R118) -/

/-- The RAM indexes of the data bytes where none faults. -/
theorem State.dataAddrs_of_canAccess {s : State} {n : Nat} (h : s.CanAccess n) : s.dataAddrs n = .ok (s.dataIndexes n) :=
  addrRange_of_ok h

theorem State.withData_of_canAccess {s : State} {n : Nat} (h : s.CanAccess n) (k : List Nat → State) :
    s.withData n k = k (s.dataIndexes n) := by
  rw [State.withData, State.dataAddrs_of_canAccess h]

/-- A data access past the end of RAM faults. -/
theorem State.withData_of_past {s : State} {n : Nat} (hp : s.cfg.oobPolicy = .fault) (hn : 0 < n)
    (h : s.i.toNat + n - 1 > 0xFFF) (k : List Nat → State) :
    s.withData n k = s.raiseFault .dataAddress (max s.i.toNat 0x1000) := by
  rw [State.withData, State.dataAddrs, hp, addrRange_of_error hn (by omega)]

/-- Whether a DATA_ADDRESS fault was taken can be seen from the run state. -/
theorem State.withData_fault {s : State} {n : Nat} {k : List Nat → State} (hs : s.runState = .running)
    (hk : ∀ ks, Part.Same s (k ks) .host) (h : (s.withData n k).runState = .fault) :
    0 < n ∧ s.cfg.oobPolicy = .fault := by
  rcases s.withData_cases n k with ⟨h', -⟩ | ⟨-, hn, -, hp⟩
  · have := (hk (ramIndexes s.i.toNat n)).2.2.2.1
    rw [← h', h, hs] at this
    cases this
  · exact ⟨hn, hp⟩

end Sys2Proof.Machine
end

