-- ==== Sys2Proof/Laws/PerInstr.lean ====
section
/-! SUPPORT. The per-instruction family WordNumber: the word of every instruction as a number, as its **Encoding** line
in spec/40_system_flow.md to 44_fx_transfers.md writes it (`0x8004 | X<<8 | Y<<4`). -/

namespace Sys2Proof.Laws.WordNumber

/-- The number that an instruction's Encoding line gives. -/
def number : Instr → Nat
  | .cls => 0x00E0
  | .ret => 0x00EE
  | .sys nnn => nnn.toNat
  | .jp nnn => 0x1000 + nnn.toNat
  | .call nnn => 0x2000 + nnn.toNat
  | .seVxNn x nn => 0x3000 + 256 * x.val + nn.toNat
  | .sneVxNn x nn => 0x4000 + 256 * x.val + nn.toNat
  | .seVxVy x y => 0x5000 + 256 * x.val + 16 * y.val
  | .ldVxNn x nn => 0x6000 + 256 * x.val + nn.toNat
  | .addVxNn x nn => 0x7000 + 256 * x.val + nn.toNat
  | .ldVxVy x y => 0x8000 + 256 * x.val + 16 * y.val
  | .orVxVy x y => 0x8001 + 256 * x.val + 16 * y.val
  | .andVxVy x y => 0x8002 + 256 * x.val + 16 * y.val
  | .xorVxVy x y => 0x8003 + 256 * x.val + 16 * y.val
  | .addVxVy x y => 0x8004 + 256 * x.val + 16 * y.val
  | .subVxVy x y => 0x8005 + 256 * x.val + 16 * y.val
  | .shrVxVy x y => 0x8006 + 256 * x.val + 16 * y.val
  | .subnVxVy x y => 0x8007 + 256 * x.val + 16 * y.val
  | .shlVxVy x y => 0x800E + 256 * x.val + 16 * y.val
  | .sneVxVy x y => 0x9000 + 256 * x.val + 16 * y.val
  | .ldINnn nnn => 0xA000 + nnn.toNat
  | .jpV0Nnn nnn => 0xB000 + nnn.toNat
  | .rndVxNn x nn => 0xC000 + 256 * x.val + nn.toNat
  | .drwVxVyN x y n => 0xD000 + 256 * x.val + 16 * y.val + n.toNat
  | .skpVx x => 0xE09E + 256 * x.val
  | .sknpVx x => 0xE0A1 + 256 * x.val
  | .ldVxDt x => 0xF007 + 256 * x.val
  | .ldVxK x => 0xF00A + 256 * x.val
  | .ldDtVx x => 0xF015 + 256 * x.val
  | .ldStVx x => 0xF018 + 256 * x.val
  | .addIVx x => 0xF01E + 256 * x.val
  | .ldFVx x => 0xF029 + 256 * x.val
  | .ldBVx x => 0xF033 + 256 * x.val
  | .ldMemVx x => 0xF055 + 256 * x.val
  | .ldVxMem x => 0xF065 + 256 * x.val

/-- The encoder gives that number. -/
def Statement (i : Instr) : Prop := (encode i).toNat = number i

theorem cls : Statement .cls := rfl

theorem ret : Statement .ret := rfl

theorem sys (nnn : BitVec 12) : Statement (.sys nnn) := by
  simp only [Statement, encode, formNnn_toNat, number, BitVec.toNat_ofNat]; omega

theorem jp (nnn : BitVec 12) : Statement (.jp nnn) := by
  simp only [Statement, encode, formNnn_toNat, number, BitVec.toNat_ofNat]

theorem call (nnn : BitVec 12) : Statement (.call nnn) := by
  simp only [Statement, encode, formNnn_toNat, number, BitVec.toNat_ofNat]

theorem seVxNn (x : Reg) (nn : Byte) : Statement (.seVxNn x nn) := by
  simp only [Statement, encode, formXNn_toNat, number, BitVec.toNat_ofNat]

theorem sneVxNn (x : Reg) (nn : Byte) : Statement (.sneVxNn x nn) := by
  simp only [Statement, encode, formXNn_toNat, number, BitVec.toNat_ofNat]

theorem seVxVy (x : Reg) (y : Reg) : Statement (.seVxVy x y) := by
  simp only [Statement, encode, formXYN_toNat, number, BitVec.toNat_ofNat]; omega

theorem ldVxNn (x : Reg) (nn : Byte) : Statement (.ldVxNn x nn) := by
  simp only [Statement, encode, formXNn_toNat, number, BitVec.toNat_ofNat]

theorem addVxNn (x : Reg) (nn : Byte) : Statement (.addVxNn x nn) := by
  simp only [Statement, encode, formXNn_toNat, number, BitVec.toNat_ofNat]

theorem ldVxVy (x : Reg) (y : Reg) : Statement (.ldVxVy x y) := by
  simp only [Statement, encode, formXYN_toNat, number, BitVec.toNat_ofNat]; omega

theorem orVxVy (x : Reg) (y : Reg) : Statement (.orVxVy x y) := by
  simp only [Statement, encode, formXYN_toNat, number, BitVec.toNat_ofNat]; omega

theorem andVxVy (x : Reg) (y : Reg) : Statement (.andVxVy x y) := by
  simp only [Statement, encode, formXYN_toNat, number, BitVec.toNat_ofNat]; omega

theorem xorVxVy (x : Reg) (y : Reg) : Statement (.xorVxVy x y) := by
  simp only [Statement, encode, formXYN_toNat, number, BitVec.toNat_ofNat]; omega

theorem addVxVy (x : Reg) (y : Reg) : Statement (.addVxVy x y) := by
  simp only [Statement, encode, formXYN_toNat, number, BitVec.toNat_ofNat]; omega

theorem subVxVy (x : Reg) (y : Reg) : Statement (.subVxVy x y) := by
  simp only [Statement, encode, formXYN_toNat, number, BitVec.toNat_ofNat]; omega

theorem shrVxVy (x : Reg) (y : Reg) : Statement (.shrVxVy x y) := by
  simp only [Statement, encode, formXYN_toNat, number, BitVec.toNat_ofNat]; omega

theorem subnVxVy (x : Reg) (y : Reg) : Statement (.subnVxVy x y) := by
  simp only [Statement, encode, formXYN_toNat, number, BitVec.toNat_ofNat]; omega

theorem shlVxVy (x : Reg) (y : Reg) : Statement (.shlVxVy x y) := by
  simp only [Statement, encode, formXYN_toNat, number, BitVec.toNat_ofNat]; omega

theorem sneVxVy (x : Reg) (y : Reg) : Statement (.sneVxVy x y) := by
  simp only [Statement, encode, formXYN_toNat, number, BitVec.toNat_ofNat]; omega

theorem ldINnn (nnn : BitVec 12) : Statement (.ldINnn nnn) := by
  simp only [Statement, encode, formNnn_toNat, number, BitVec.toNat_ofNat]

theorem jpV0Nnn (nnn : BitVec 12) : Statement (.jpV0Nnn nnn) := by
  simp only [Statement, encode, formNnn_toNat, number, BitVec.toNat_ofNat]

theorem rndVxNn (x : Reg) (nn : Byte) : Statement (.rndVxNn x nn) := by
  simp only [Statement, encode, formXNn_toNat, number, BitVec.toNat_ofNat]

theorem drwVxVyN (x : Reg) (y : Reg) (n : BitVec 4) : Statement (.drwVxVyN x y n) := by
  simp only [Statement, encode, formXYN_toNat, number, BitVec.toNat_ofNat]

theorem skpVx (x : Reg) : Statement (.skpVx x) := by
  simp only [Statement, encode, formXNn_toNat, number, BitVec.toNat_ofNat]; omega

theorem sknpVx (x : Reg) : Statement (.sknpVx x) := by
  simp only [Statement, encode, formXNn_toNat, number, BitVec.toNat_ofNat]; omega

theorem ldVxDt (x : Reg) : Statement (.ldVxDt x) := by
  simp only [Statement, encode, formXNn_toNat, number, BitVec.toNat_ofNat]; omega

theorem ldVxK (x : Reg) : Statement (.ldVxK x) := by
  simp only [Statement, encode, formXNn_toNat, number, BitVec.toNat_ofNat]; omega

theorem ldDtVx (x : Reg) : Statement (.ldDtVx x) := by
  simp only [Statement, encode, formXNn_toNat, number, BitVec.toNat_ofNat]; omega

theorem ldStVx (x : Reg) : Statement (.ldStVx x) := by
  simp only [Statement, encode, formXNn_toNat, number, BitVec.toNat_ofNat]; omega

theorem addIVx (x : Reg) : Statement (.addIVx x) := by
  simp only [Statement, encode, formXNn_toNat, number, BitVec.toNat_ofNat]; omega

theorem ldFVx (x : Reg) : Statement (.ldFVx x) := by
  simp only [Statement, encode, formXNn_toNat, number, BitVec.toNat_ofNat]; omega

theorem ldBVx (x : Reg) : Statement (.ldBVx x) := by
  simp only [Statement, encode, formXNn_toNat, number, BitVec.toNat_ofNat]; omega

theorem ldMemVx (x : Reg) : Statement (.ldMemVx x) := by
  simp only [Statement, encode, formXNn_toNat, number, BitVec.toNat_ofNat]; omega

theorem ldVxMem (x : Reg) : Statement (.ldVxMem x) := by
  simp only [Statement, encode, formXNn_toNat, number, BitVec.toNat_ofNat]; omega

end Sys2Proof.Laws.WordNumber
end

