-- ==== Sys2Proof/Laws/Step.lean ====
section
/-! SUPPORT. What one step can do, once: which of its three kinds it is, what an instruction step answers
(`State.runInstr_cases`), and what a poll leaves. -/

namespace Sys2Proof.Machine

theorem step_slots {s : State} {left : Nat} (h : s.runState = .running) (hf : s.frame = .slots (left + 1)) :
    step s = (s.takeSlot left).runInstr := by
  simp [step, h, hf]

theorem step_end {s : State} (h : s.runState = .running) (hf : s.frame = .slots 0) : step s = .next s.endFrame := by
  simp [step, h, hf]

theorem step_tick {s : State} (h : s.runState ≠ .running ∨ s.frame = .awaitTick) : step s = .next s.tick := by
  unfold step
  rcases h with h | h
  · cases hr : s.runState <;> simp_all
  · rw [h]; cases hr : s.runState <;> simp_all

/-- The three kinds of a step. -/
theorem step_cases {s t : State} (h : step s = .next t) :
    (∃ left, s.runState = .running ∧ s.frame = .slots (left + 1) ∧ (s.takeSlot left).runInstr = .next t) ∨
    (s.runState = .running ∧ s.frame = .slots 0 ∧ t = s.endFrame) ∨
    ((s.runState ≠ .running ∨ s.frame = .awaitTick) ∧ t = s.tick) := by
  by_cases hr : s.runState = .running
  · rcases hf : s.frame with _ | (_ | left)
    · rw [step_tick (.inr hf)] at h; cases h; exact .inr (.inr ⟨.inr rfl, rfl⟩)
    · rw [step_end hr hf] at h; cases h; exact .inr (.inl ⟨hr, rfl, rfl⟩)
    · rw [step_slots hr hf] at h; exact .inl ⟨left, hr, rfl, h⟩
  · rw [step_tick (.inl hr)] at h; cases h; exact .inr (.inr ⟨.inl hr, rfl⟩)

/-- What an instruction step answers: the decoded instruction, the no-op of an unassigned word, or FETCH_ADDRESS. -/
theorem State.runInstr_cases (s : State) :
    ∃ t, s.runInstr = .next t ∧
      ((∃ w i, s.fetch = .ok w ∧ decode w = .ok i ∧ exec i s = .next t) ∨
        (∃ w r, s.fetch = .ok w ∧ decode w = .error r ∧ t = s.unknownOpcode w) ∨
        (s.fetch = .error (max s.pc.toNat 0x1000) ∧ t = s.raiseFault .fetchAddress (max s.pc.toNat 0x1000) ∧
          0xFFF < s.pc.toNat + 1 ∧ s.cfg.oobPolicy = .fault)) := by
  unfold State.runInstr
  rcases s.fetch_cases with ⟨h, -⟩ | ⟨h, h', h''⟩
  · rw [h]
    cases hd : decode (wordOfBytes (s.ramByte (s.pc.toNat % 0x1000)) (s.ramByte ((s.pc.toNat + 1) % 0x1000))) with
    | error r => exact ⟨_, by simp only [hd], .inr (.inl ⟨_, r, rfl, hd, rfl⟩)⟩
    | ok i =>
      obtain ⟨t, ht, -⟩ := exec_cases i s
      exact ⟨t, by simp only [hd, ht], .inl ⟨_, i, rfl, hd, ht⟩⟩
  · rw [h]; exact ⟨_, rfl, .inr (.inr ⟨rfl, rfl, h', h''⟩)⟩

/-- An instruction step from a RUNNING state: it goes on RUNNING in the same frame, or it took a fault. -/
theorem State.runInstr_host {s : State} (hr : s.runState = .running) :
    ∃ t, s.runInstr = .next t ∧ (Part.Same (s.setOut t.out) t .host ∨
      ∃ c a, t = s.raiseFault c a) := by
  obtain ⟨t, ht, h⟩ := s.runInstr_cases
  refine ⟨t, ht, ?_⟩
  rcases h with ⟨w, i, -, -, he⟩ | ⟨w, r, -, -, rfl⟩ | ⟨-, rfl, -⟩
  · obtain ⟨t', ht', h⟩ := exec_cases i s
    rw [he] at ht'
    cases ht'
    rcases h with h | h
    · left; simp only [Part.Same] at h ⊢; simp_all
    · obtain ⟨c, a, rfl, -⟩ := h.taken; exact .inr ⟨c, a, rfl⟩
  · left; simp [Part.Same, State.unknownOpcode]
  · exact .inr ⟨_, _, rfl⟩

/-- A run of one step and then `k` more. -/
theorem core_run_succ {k : Nat} {s t : State} (h : step s = .next t) :
    Sys2Proof.core.run (k + 1) s = Sys2Proof.core.run k t := by
  have h' : Sys2Proof.core.step s = .next t := h
  simp only [Host.Core.run, h']

/-! ### The poll -/

theorem State.applyEvent_cfg (s : State) (e : HostEvent) : (s.applyEvent e).cfg = s.cfg := by
  unfold State.applyEvent
  split
  · rfl
  · cases e
    all_goals first | rfl | (simp only; split <;> rfl)

@[simp] theorem State.hostReset_runState (s : State) : s.hostReset.runState = .running := rfl

/-- A property that every event keeps, the poll keeps. -/
theorem State.poll_keeps {P : State → Prop} (hP : ∀ s e, P s → P (s.applyEvent e)) :
    ∀ (es : List HostEvent) (s : State), P s → P (s.poll es) := by
  intro es
  induction es with
  | nil => exact fun s h => h
  | cons e es ih =>
    intro s h
    unfold State.poll
    split
    · exact hP s e h
    · exact ih _ (hP s e h)

theorem State.poll_cfg (es : List HostEvent) (s : State) : (s.poll es).cfg = s.cfg :=
  State.poll_keeps (P := fun t => t.cfg = s.cfg) (fun t e h => (t.applyEvent_cfg e).trans h) es s rfl

end Sys2Proof.Machine
end

