-- ==== Sys2Proof/Machine/Assembler.lean ====
section
/-! DEFINITION. The assembler line of an instruction, in the syntax of spec/30_encoding.md R76 and the mnemonics of
R70. It has no effect on the machine: "The hex word is what binds". -/

namespace Sys2Proof.Machine

/-- A hexadecimal digit; the spec writes the letters as capitals. -/
def hexDigit (n : Nat) : String :=
  match n with
  | 0 => "0" | 1 => "1" | 2 => "2" | 3 => "3" | 4 => "4" | 5 => "5" | 6 => "6" | 7 => "7"
  | 8 => "8" | 9 => "9" | 10 => "A" | 11 => "B" | 12 => "C" | 13 => "D" | 14 => "E" | _ => "F"

/-- `VX`, a register in hex. -/
def asmReg (x : Reg) : String := "V" ++ hexDigit x.val

/-- `NN`, written `0x..`. -/
def asmNN (nn : Byte) : String := "0x" ++ hexDigit (nn.toNat / 16) ++ hexDigit (nn.toNat % 16)

/-- `NNN`, written `0x...`. -/
def asmNNN (nnn : BitVec 12) : String :=
  "0x" ++ hexDigit (nnn.toNat / 256) ++ hexDigit (nnn.toNat / 16 % 16) ++ hexDigit (nnn.toNat % 16)

/-- `N`, in plain decimal, as the programs of spec/95_test_vectors.md write it. -/
def asmN (n : BitVec 4) : String :=
  if n.toNat < 10 then hexDigit n.toNat else "1" ++ hexDigit (n.toNat - 10)

/-- `MNEMONIC op1, op2`. -/
def asm2 (mnemonic a b : String) : String := mnemonic ++ " " ++ a ++ ", " ++ b

/-- The line of an instruction. -/
def assembly : Instr → String
  | .cls => "CLS"
  | .ret => "RET"
  | .sys nnn => "SYS " ++ asmNNN nnn
  | .jp nnn => "JP " ++ asmNNN nnn
  | .call nnn => "CALL " ++ asmNNN nnn
  | .seVxNn x nn => asm2 "SE" (asmReg x) (asmNN nn)
  | .sneVxNn x nn => asm2 "SNE" (asmReg x) (asmNN nn)
  | .seVxVy x y => asm2 "SE" (asmReg x) (asmReg y)
  | .ldVxNn x nn => asm2 "LD" (asmReg x) (asmNN nn)
  | .addVxNn x nn => asm2 "ADD" (asmReg x) (asmNN nn)
  | .ldVxVy x y => asm2 "LD" (asmReg x) (asmReg y)
  | .orVxVy x y => asm2 "OR" (asmReg x) (asmReg y)
  | .andVxVy x y => asm2 "AND" (asmReg x) (asmReg y)
  | .xorVxVy x y => asm2 "XOR" (asmReg x) (asmReg y)
  | .addVxVy x y => asm2 "ADD" (asmReg x) (asmReg y)
  | .subVxVy x y => asm2 "SUB" (asmReg x) (asmReg y)
  | .shrVxVy x y => asm2 "SHR" (asmReg x) (asmReg y)
  | .subnVxVy x y => asm2 "SUBN" (asmReg x) (asmReg y)
  | .shlVxVy x y => asm2 "SHL" (asmReg x) (asmReg y)
  | .sneVxVy x y => asm2 "SNE" (asmReg x) (asmReg y)
  | .ldINnn nnn => asm2 "LD" "I" (asmNNN nnn)
  | .jpV0Nnn nnn => asm2 "JP" "V0" (asmNNN nnn)
  | .rndVxNn x nn => asm2 "RND" (asmReg x) (asmNN nn)
  | .drwVxVyN x y n => asm2 "DRW" (asmReg x) (asmReg y) ++ ", " ++ asmN n
  | .skpVx x => "SKP " ++ asmReg x
  | .sknpVx x => "SKNP " ++ asmReg x
  | .ldVxDt x => asm2 "LD" (asmReg x) "DT"
  | .ldVxK x => asm2 "LD" (asmReg x) "K"
  | .ldDtVx x => asm2 "LD" "DT" (asmReg x)
  | .ldStVx x => asm2 "LD" "ST" (asmReg x)
  | .addIVx x => asm2 "ADD" "I" (asmReg x)
  | .ldFVx x => asm2 "LD" "F" (asmReg x)
  | .ldBVx x => asm2 "LD" "B" (asmReg x)
  | .ldMemVx x => asm2 "LD" "[I]" (asmReg x)
  | .ldVxMem x => asm2 "LD" (asmReg x) "[I]"

end Sys2Proof.Machine
end

