-- ==== Sys2Proof/Tests/Slice0.lean ====
section
/-! SUPPORT. The model's own tests. The words of the decode tests are written out from the patterns of
spec/30_encoding.md R70; the expected results of the one-step tests are the vectors of spec/95_test_vectors.md, named
in each docstring. After them stand the witnesses: for each statement with hypotheses, a concrete state and operands
that meet them all, clause by clause. -/

namespace Sys2Proof.Tests

open Sys2Proof.Machine

/-! ### WellFormed: a smoke test -/

theorem test_wf_refuses_sys_0E0 : Instr.wf (.sys 0x0E0) = false := by decide
theorem test_wf_refuses_sys_0EE : Instr.wf (.sys 0x0EE) = false := by decide
theorem test_wf_accepts_neighbours : Instr.wf (.sys 0x0E1) = true ∧ Instr.wf (.sys 0x0EF) = true := by decide

/-! ### Decode: every row of R70, its fields written out bit by bit -/

theorem test_decode_cls : decode 0b0000_0000_1110_0000#16 = .ok (.cls) := by decide
theorem test_decode_ret : decode 0b0000_0000_1110_1110#16 = .ok (.ret) := by decide
theorem test_decode_sys : decode 0b0000_0001_0010_0011#16 = .ok (.sys 0x123) := by decide
theorem test_decode_jp : decode 0b0001_1010_1011_1100#16 = .ok (.jp 0xABC) := by decide
theorem test_decode_call : decode 0b0010_0100_0101_0110#16 = .ok (.call 0x456) := by decide
theorem test_decode_seVxNn : decode 0b0011_1010_0100_0010#16 = .ok (.seVxNn 0xA 0x42) := by decide
theorem test_decode_sneVxNn : decode 0b0100_1010_0100_0010#16 = .ok (.sneVxNn 0xA 0x42) := by decide
theorem test_decode_seVxVy : decode 0b0101_1010_1011_0000#16 = .ok (.seVxVy 0xA 0xB) := by decide
theorem test_decode_ldVxNn : decode 0b0110_1010_0111_1111#16 = .ok (.ldVxNn 0xA 0x7F) := by decide
theorem test_decode_addVxNn : decode 0b0111_1010_1111_1110#16 = .ok (.addVxNn 0xA 0xFE) := by decide
theorem test_decode_ldVxVy : decode 0b1000_0001_0010_0000#16 = .ok (.ldVxVy 1 2) := by decide
theorem test_decode_orVxVy : decode 0b1000_0001_0010_0001#16 = .ok (.orVxVy 1 2) := by decide
theorem test_decode_andVxVy : decode 0b1000_0001_0010_0010#16 = .ok (.andVxVy 1 2) := by decide
theorem test_decode_xorVxVy : decode 0b1000_0001_0010_0011#16 = .ok (.xorVxVy 1 2) := by decide
theorem test_decode_addVxVy : decode 0b1000_1110_1111_0100#16 = .ok (.addVxVy 0xE 0xF) := by decide
theorem test_decode_subVxVy : decode 0b1000_0001_0010_0101#16 = .ok (.subVxVy 1 2) := by decide
theorem test_decode_shrVxVy : decode 0b1000_0001_0010_0110#16 = .ok (.shrVxVy 1 2) := by decide
theorem test_decode_subnVxVy : decode 0b1000_0001_0010_0111#16 = .ok (.subnVxVy 1 2) := by decide
theorem test_decode_shlVxVy : decode 0b1000_0001_0010_1110#16 = .ok (.shlVxVy 1 2) := by decide
theorem test_decode_sneVxVy : decode 0b1001_1010_1011_0000#16 = .ok (.sneVxVy 0xA 0xB) := by decide
theorem test_decode_ldINnn : decode 0b1010_0001_0010_0011#16 = .ok (.ldINnn 0x123) := by decide
theorem test_decode_jpV0Nnn : decode 0b1011_0011_0000_0001#16 = .ok (.jpV0Nnn 0x301) := by decide
theorem test_decode_rndVxNn : decode 0b1100_0001_0000_1111#16 = .ok (.rndVxNn 1 0x0F) := by decide
theorem test_decode_drwVxVyN : decode 0b1101_0001_0010_0101#16 = .ok (.drwVxVyN 1 2 5) := by decide
theorem test_decode_skpVx : decode 0b1110_0011_1001_1110#16 = .ok (.skpVx 3) := by decide
theorem test_decode_sknpVx : decode 0b1110_0011_1010_0001#16 = .ok (.sknpVx 3) := by decide
theorem test_decode_ldVxDt : decode 0b1111_0101_0000_0111#16 = .ok (.ldVxDt 5) := by decide
theorem test_decode_ldVxK : decode 0b1111_0101_0000_1010#16 = .ok (.ldVxK 5) := by decide
theorem test_decode_ldDtVx : decode 0b1111_0101_0001_0101#16 = .ok (.ldDtVx 5) := by decide
theorem test_decode_ldStVx : decode 0b1111_0101_0001_1000#16 = .ok (.ldStVx 5) := by decide
theorem test_decode_addIVx : decode 0b1111_0101_0001_1110#16 = .ok (.addIVx 5) := by decide
theorem test_decode_ldFVx : decode 0b1111_0101_0010_1001#16 = .ok (.ldFVx 5) := by decide
theorem test_decode_ldBVx : decode 0b1111_0101_0011_0011#16 = .ok (.ldBVx 5) := by decide
theorem test_decode_ldMemVx : decode 0b1111_0011_0101_0101#16 = .ok (.ldMemVx 3) := by decide
theorem test_decode_ldVxMem : decode 0b1111_1111_0110_0101#16 = .ok (.ldVxMem 0xF) := by decide

/-- The unassigned words of spec/95_test_vectors.md, one of each class of R73. -/
theorem test_decode_unassigned :
    decode 0x5AB1#16 = .error .unassigned5 ∧ decode 0x8128#16 = .error .unassigned8 ∧
    decode 0x9AB3#16 = .error .unassigned9 ∧ decode 0xE3A2#16 = .error .unassignedE ∧
    decode 0xF0E0#16 = .error .unassignedF := by decide

/-- R47: the byte at the lower address is the high byte. -/
theorem test_decodeBytes : decodeBytes [0x12, 0x04, 0x60] = .ok (.jp 0x204, [0x60]) := by decide
theorem test_decodeBytes_truncated : decodeBytes [0x12] = .error .truncated := by decide
theorem test_decodeTableWord : decodeTableWord 16 0xD125 = some (.drwVxVyN 1 2 5) := by decide

/-! ### The assembler line (R76), as the programs of spec/95_test_vectors.md write it -/

theorem test_assembly_immediate : assembly (.seVxNn 0 0x05) = "SE V0, 0x05" := by decide
theorem test_assembly_memory : assembly (.ldVxMem 2) = "LD V2, [I]" := by decide
theorem test_assembly_draw : assembly (.drwVxVyN 1 2 5) = "DRW V1, V2, 5" := by decide

/-! ### One step of one word, from a small change of the reset state -/

/-- The state after one step of word `w` at PC. -/
def after (s : State) (w : Nat) : State :=
  match step (s.withFetchWord 16 w) with
  | .next t => t
  | _ => s

/-- The reset state with other registers. -/
def withV (l : List (Reg × Byte)) : State := l.foldl (fun s p => s.setV p.1 p.2) State.reset

/-- The same machine with QUIRK = SUPER-CHIP. -/
def super (s : State) : State := { s with cfg := { s.cfg with quirk := .superChip } }

/-- The same machine with OOB_POLICY = MASK. -/
def masked (s : State) : State := { s with cfg := { s.cfg with oobPolicy := .mask } }

/-- The same machine with STACK_DEPTH = 16. -/
def deep (s : State) : State := { s with cfg := { s.cfg with stackDepth := .sixteen } }

/-- The lit pixels of the columns `xs` and rows `ys`. -/
def lit (s : State) (xs ys : List Nat) : List (Nat × Nat) :=
  ys.flatMap fun y => (xs.filter fun x => s.fb.pixel x y).map fun x => (x, y)

/-- PC and the fault record. -/
def record (s : State) : RunState × FaultCode × Word × BitVec 17 × Word :=
  (s.runState, s.faultCode, s.faultPc, s.faultAddr, s.pc)

/-- V-SYS-1 -/
theorem test_cls :
    ((after (State.reset.setFb (Framebuffer.clear.xorPixel 63 31 true)) 0x00E0).fb.pixel 63 31,
    (after State.reset 0x00E0).pc) = (false, 0x202) := by decide

/-- S2 -/
theorem test_ret :
    let t := after { State.reset with sp := 1, stack := State.reset.stack.set 0 0x234 } 0x00EE
    (t.pc, t.sp, t.slot 0) = (0x234, 0, 0x234) := by decide

/-- V-SYS-3 -/
theorem test_ret_underflow :
    record (after State.reset 0x00EE) = (.fault, .stackUnderflow, 0x200, 0, 0x200) := by decide

/-- V-SYS-4 -/
theorem test_sys :
    ((after State.reset 0x0123).pc, (after State.reset 0x0123).out) = (0x202, none) := by decide

/-- V-SYS-5 -/
theorem test_jp :
    (after State.reset 0x1ABC).pc = 0xABC := by decide

/-- V-SYS-6 -/
theorem test_call :
    let t := after State.reset 0x2400
    (t.slot 0, t.sp, t.pc) = (0x202, 1, 0x400) := by decide

/-- V-SYS-7, V-SYS-8 -/
theorem test_call_depth :
    record (after { State.reset with sp := 12 } 0x2400) = (.fault, .stackOverflow, 0x200, 0, 0x200) ∧
    (after (deep { State.reset with sp := 12 }) 0x2400).slot 12 = 0x202 := by decide

/-- V-SYS-11 -/
theorem test_jpV0 :
    (after (withV [(0, 0xFF)]) 0xBFFF).pc = 0x10FE := by decide

/-- V-SKP-1, V-SKP-2 -/
theorem test_seVxNn :
    ((after (withV [(0xA, 0x42)]) 0x3A42).pc, (after (withV [(0xA, 0x41)]) 0x3A42).pc) = (0x204, 0x202) := by decide

/-- V-SKP-3, V-SKP-4 -/
theorem test_sneVxNn :
    ((after (withV [(0xA, 0x42)]) 0x4A42).pc, (after (withV [(0xA, 0x41)]) 0x4A42).pc) = (0x202, 0x204) := by decide

/-- V-SKP-5, V-SKP-6 -/
theorem test_seVxVy :
    ((after (withV [(0xA, 7), (0xB, 7)]) 0x5AB0).pc, (after (withV [(0xA, 7), (0xB, 8)]) 0x5AB0).pc) =
    (0x204, 0x202) := by decide

/-- V-SKP-8, V-SKP-9 -/
theorem test_sneVxVy :
    ((after (withV [(0xA, 7), (0xB, 8)]) 0x9AB0).pc, (after (withV [(0xA, 7), (0xB, 7)]) 0x9AB0).pc) =
    (0x204, 0x202) := by decide

/-- V-SKP-7 -/
theorem test_unassigned :
    let t := after (withV [(0xA, 7), (0xB, 7)]) 0x5AB1
    (t.pc, t.out) = (0x202, some (.unknownOpcode 0x200 0x5AB1)) := by decide

/-- V-SKP-11, V-SKP-12 -/
theorem test_skp :
    ((after ((withV [(3, 0x17)]).setKey 0x80) 0xE39E).pc, (after (withV [(3, 0x17)]) 0xE39E).pc) = (0x204, 0x202) := by decide

/-- V-SKP-13, V-SKP-14 -/
theorem test_sknp :
    ((after ((withV [(3, 0x17)]).setKey 0x80) 0xE3A1).pc, (after (withV [(3, 0x17)]) 0xE3A1).pc) = (0x202, 0x204) := by decide

/-- V-ALU-1 -/
theorem test_ldVxNn :
    (after State.reset 0x6A7F).getV 0xA = 0x7F := by decide

/-- V-ALU-2 -/
theorem test_addVxNn :
    let t := after (withV [(0xA, 2), (0xF, 0x55)]) 0x7AFF
    (t.getV 0xA, t.getV 0xF) = (0x01, 0x55) := by decide

/-- V-ALU-3 -/
theorem test_addVxNn_vf :
    (after (withV [(0xF, 2)]) 0x7FFF).getV 0xF = 0x01 := by decide

/-- V-ALU-4 -/
theorem test_ldINnn :
    (after State.reset 0xA123).i = 0x123 := by decide

/-- V-ALU-5 -/
theorem test_ldVxVy :
    (after (withV [(2, 0x5A)]) 0x8120).getV 1 = 0x5A := by decide

/-- V-ALU-6 -/
theorem test_or :
    let t := after (withV [(1, 0xF0), (2, 0x0F), (0xF, 7)]) 0x8121
    (t.getV 1, t.getV 0xF) = (0xFF, 0x00) := by decide

/-- V-ALU-9 -/
theorem test_or_vf :
    ((after (withV [(0xF, 0xF0), (2, 0x0F)]) 0x8F21).getV 0xF,
    (after (super (withV [(0xF, 0xF0), (2, 0x0F)])) 0x8F21).getV 0xF) = (0x00, 0xFF) := by decide

/-- V-ALU-7 -/
theorem test_and :
    let t := after (super (withV [(1, 0xF0), (2, 0x3C), (0xF, 7)])) 0x8122
    (t.getV 1, t.getV 0xF) = (0x30, 0x07) := by decide

/-- V-ALU-8 -/
theorem test_xor :
    let t := after (withV [(1, 0xF0), (2, 0x3C), (0xF, 7)]) 0x8123
    (t.getV 1, t.getV 0xF) = (0xCC, 0x00) := by decide

/-- S3 -/
theorem test_addVxVy :
    let t := after (withV [(0xE, 0xFF), (0xF, 0x01)]) 0x8EF4
    (t.getV 0xE, t.getV 0xF) = (0x00, 1) := by decide

/-- V-ALU-12 -/
theorem test_addVxVy_vf :
    (after (withV [(0xF, 0xFF), (1, 0x01)]) 0x8F14).getV 0xF = 1 := by decide

/-- S4 -/
theorem test_sub_vf :
    (after (withV [(0, 0x02), (0xF, 0x05)]) 0x8F05).getV 0xF = 1 := by decide

/-- V-ALU-14 -/
theorem test_sub :
    let t := after (withV [(1, 0x04), (2, 0x05)]) 0x8125
    (t.getV 1, t.getV 0xF) = (0xFF, 0) := by decide

/-- V-ALU-15 -/
theorem test_shr :
    let t := after (withV [(1, 0x02), (2, 0x03)]) 0x8126
    (t.getV 1, t.getV 0xF, t.getV 2) = (0x01, 1, 0x03) := by decide

/-- S5 -/
theorem test_shr_super :
    let t := after (super (withV [(1, 0x81)])) 0x8016
    (t.getV 0, t.getV 0xF) = (0x00, 0) := by decide

/-- V-ALU-17 -/
theorem test_subn :
    let t := after (withV [(1, 0x05), (2, 0x03)]) 0x8127
    (t.getV 1, t.getV 0xF) = (0xFE, 0) := by decide

/-- V-ALU-19 -/
theorem test_subn_equal :
    let t := after (withV [(1, 0x04), (2, 0x04)]) 0x8127
    (t.getV 1, t.getV 0xF) = (0x00, 1) := by decide

/-- V-ALU-20 -/
theorem test_shl :
    let t := after (withV [(1, 0x01), (2, 0x81)]) 0x812E
    (t.getV 1, t.getV 0xF) = (0x02, 1) := by decide

/-- V-ALU-21 -/
theorem test_shl_vf :
    (after (withV [(0xF, 0x81)]) 0x8FFE).getV 0xF = 1 := by decide

/-- V-DRW-2 -/
theorem test_drw_clip :
    let t := after (withV [(0, 60), (1, 30)]) 0xD015
    lit t [0, 59, 60, 61, 62, 63] [0, 29, 30, 31] = [(60, 30), (61, 30), (62, 30), (63, 30), (60, 31), (63, 31)] := by decide

/-- V-DRW-8, V-DRW-9 -/
theorem test_drw_edge :
    let s := (((withV [(0xF, 5)]).setI 0xFFF).setRamByte 0xFFF 0x80)
    record (after s 0xD002) = (.fault, .dataAddress, 0x200, 0x1000, 0x200) ∧ (after s 0xD002).getV 0xF = 5 ∧
    lit (after (masked s) 0xD002) [0, 1, 2, 3, 4] [0, 1, 2] = [(0, 0), (0, 1), (1, 1), (2, 1), (3, 1)] := by decide

/-- V-FX-1 -/
theorem test_ldVxDt :
    (after (State.reset.setDt 0x2A) 0xF507).getV 5 = 0x2A := by decide

/-- V-FX-2 -/
theorem test_ldDtVx :
    (after (withV [(5, 0x3C)]) 0xF515).dt = 0x3C := by decide

/-- V-FX-3 -/
theorem test_ldStVx :
    let t := after (withV [(5, 0x3C)]) 0xF518
    (t.st, t.toneActive) = (0x3C, false) := by decide

/-- V-FX-4 -/
theorem test_addIVx :
    let t := after ((withV [(5, 1), (0xF, 9)]).setI 0xFFFF) 0xF51E
    (t.i, t.getV 0xF) = (0x0000, 9) := by decide

/-- V-FX-7, V-FX-8 -/
theorem test_ldFVx :
    ((after (withV [(5, 0x1A)]) 0xF529).i, (after (withV [(5, 0xFF)]) 0xF529).i) = (0x032, 0x04B) := by decide

/-- S7 -/
theorem test_ldBVx :
    let t := after ((withV [(2, 234)]).setI 0x300) 0xF233
    (t.ramByte 0x300, t.ramByte 0x301, t.ramByte 0x302, t.i) = (2, 3, 4, 0x300) := by decide

/-- V-FX-12, V-FX-13 -/
theorem test_ldBVx_edge :
    let s := (withV [(5, 123)]).setI 0xFFE
    record (after s 0xF533) = (.fault, .dataAddress, 0x200, 0x1000, 0x200) ∧ (after s 0xF533).ramByte 0xFFE = 0 ∧
    (after (masked s) 0xF533).ramByte 0x000 = 3 := by decide

/-- S8 -/
theorem test_ldMemVx :
    let s := (withV [(0, 1), (1, 2), (2, 3), (3, 4)]).setI 0x400
    let t := after s 0xF355
    (t.ramByte 0x400, t.ramByte 0x403, t.i, (after (super s) 0xF355).i) = (1, 4, 0x404, 0x400) := by decide

/-- V-FX-15, with two of its bytes -/
theorem test_ldVxMem :
    let t := after (((State.reset.setI 0x300).setRamByte 0x300 0x10).setRamByte 0x30F 0x1F) 0xFF65
    (t.getV 0, t.getV 0xF, t.i) = (0x10, 0x1F, 0x310) := by decide

/-- V-FX-17 -/
theorem test_ldVxMem_edge :
    record (after (State.reset.setI 0xFFFF) 0xF065) = (.fault, .dataAddress, 0x200, 0xFFFF, 0x200) := by decide

/-- V-KW-2 -/
theorem test_ldVxK_press :
    let t := after (State.reset.setKey 0x0208) 0xF30A
    (t.kwPhase, t.kwKey, t.pc) = (.held, 3, 0x200) := by decide

/-- V-KW-4 -/
theorem test_ldVxK_release :
    let t := after (State.reset.setKw .held 3) 0xF30A
    (t.kwPhase, t.getV 3, t.pc) = (.idle, 3, 0x202) := by decide

/-- V-ALU-24: the value of the draw is free, but NN = 0 masks it all. -/
theorem test_rnd_masked : ∃ t, exec (.rndVxNn 1 0x00) State.reset = .next t ∧ t.getV 1 = 0x00 ∧ t.draws = 1 :=
  ⟨_, rfl, by simp, rfl⟩

/-- V-SYS-13: the second byte of the fetch is out of range. -/
theorem test_fetch_edge :
    record (after (State.reset.setPc 0xFFF) 0x1FFF) = (.fault, .fetchAddress, 0xFFF, 0x1000, 0xFFF) := by decide

/-- V-SYS-12: under MASK the fetch wraps. -/
theorem test_fetch_masked : (after (masked (State.reset.setPc 0x10FE)) 0x6A11).getV 0xA = 0x11 := by decide

/-- V-RUN-1, the end of its frame 1 and of its frame 2. -/
theorem test_end_of_frame :
    ((State.reset.setDt 3).setSt 2).endFrame.toneActive = true ∧ ((State.reset.setDt 2).setSt 1).endFrame.st = 0 ∧
    ((State.reset.setDt 2).setSt 1).endFrame.toneActive = false ∧ State.reset.endFrame.dt = 0 := by decide

/-- V-RUN-10: a RESET inside a poll clears the latch, and the events after it still count. -/
theorem test_poll_reset : (State.reset.poll [.keyDown 5, .reset, .keyDown 6]).key = 0x0040 := by decide

/-- V-RUN-11: a QUIT discards the rest of its poll. -/
theorem test_poll_quit :
    ((State.reset.poll [.quit, .keyDown 1]).runState, (State.reset.poll [.quit, .keyDown 1]).key) = (.quit, 0) := by
  decide

/-! ### Witnesses: encoding and the instruction step -/

/-- The reset state with the word `w` at PC, in a RUNNING frame with one slot left. -/
def inFrame (w : Word) : State := (State.reset.placeWord w).setFrame (.slots 1)

theorem witness_DecodeEncodeRoundTrip : Instr.wf (.sys 0x0E1) = true ∧ Instr.wf (.drwVxVyN 15 0 15) = true := by decide

theorem witness_EncodeDecodeRoundTrip : decode 0xFF65#16 = .ok (.ldVxMem 15) ∧ decode 0x0000#16 = .ok (.sys 0) := by
  decide

theorem witness_DecodeFollowsOpcodeMap :
    decode 0x00EE#16 = .ok .ret ∧ decode 0xFFFF#16 = .error .unassignedF := by decide

theorem witness_UnassignedWordsExactly :
    decode 0x5FFF#16 = .error .unassigned5 ∧ decode 0x900F#16 = .error .unassigned9 ∧
    decode 0x8FFF#16 = .error .unassigned8 ∧ decode 0xE09F#16 = .error .unassignedE ∧
    decode 0xF000#16 = .error .unassignedF := by decide

theorem witness_StepRunsDecodedInstruction :
    ∃ (s : State) (left hi lo : Nat) (i : Instr),
      s.runState = .running ∧ s.frame = .slots (left + 1) ∧
      addr s.cfg.oobPolicy s.pc.toNat = .ok hi ∧ addr s.cfg.oobPolicy (s.pc.toNat + 1) = .ok lo ∧
      decode (wordOfBytes (s.ramByte hi) (s.ramByte lo)) = .ok i :=
  ⟨((State.reset.setPc 0xFFE).placeWord 0x1ABC).setFrame (.slots 1), 0, 0xFFE, 0xFFF, .jp 0xABC,
    rfl, rfl, by decide, by decide, by decide⟩

theorem witness_UnassignedWordIsNoOp :
    ∃ (s : State) (left : Nat) (w : Word) (r : Reject),
      s.runState = .running ∧ s.frame = .slots (left + 1) ∧ s.fetch = .ok w ∧ decode w = .error r :=
  ⟨inFrame 0x5AB1, 0, 0x5AB1, .unassigned5, rfl, rfl, by decide, by decide⟩

theorem witness_StoredBytesAreFetched : ∃ s : State, RamInv s ∧ s.i = s.pc + 2 ∧ s.pc.toNat + 3 ≤ 0xFFF :=
  ⟨(State.reset.setPc 0xFFC).setI 0xFFE, ⟨by decide, by decide⟩, by decide, by decide⟩

theorem witness_StopIdiomStays :
    ∃ (s : State) (left : Nat), s.runState = .running ∧ s.frame = .slots (left + 1) ∧ s.AtStopIdiom :=
  ⟨inFrame 0x1200, 0, rfl, rfl, 0x200, by decide, by decide⟩

theorem witness_InstructionStepsDoNotPoll :
    ∃ (s t : State) (left : Nat), s.runState = .running ∧ s.frame = .slots (left + 1) ∧ step s = .next t :=
  ⟨inFrame 0x0123, _, 0, rfl, rfl, rfl⟩

/-! ### Witnesses: the instructions -/

theorem witness_RetPopsReturnAddress :
    (∃ s : State, s.sp ≠ 0) ∧ (∃ s : State, s.sp = 0) :=
  ⟨⟨{ State.reset with sp := 12 }, by decide⟩, State.reset, rfl⟩

theorem witness_CallPushesReturnAddress :
    (∃ s : State, s.sp < s.cfg.depth ∧ s.sp + 1 = s.cfg.depth) ∧ (∃ s : State, s.sp = s.cfg.depth) :=
  ⟨⟨deep { State.reset with sp := 15 }, by decide, by decide⟩, { State.reset with sp := 12 }, by decide⟩

theorem witness_SysAndJump : (Instr.sys 0x0EF).wf = true ∧ (Instr.sys 0xFFF).wf = true := by decide

theorem witness_LogicAndFlagReset :
    ∃ (s u : State) (x y : Reg), (Instr.orVxVy x y, 0x8001, s.getV x ||| s.getV y) ∈
        [(.orVxVy x y, 0x8001, s.getV x ||| s.getV y), (.andVxVy x y, 0x8002, s.getV x &&& s.getV y),
          (.xorVxVy x y, 0x8003, s.getV x ^^^ s.getV y)] ∧
      s.cfg.quirk = .chip8 ∧ u.cfg.quirk ≠ .chip8 :=
  ⟨State.reset, super State.reset, 15, 2, by simp, rfl, by decide⟩

theorem witness_AddWithCarry : (1 : Reg) ≠ 0xF := by decide

theorem witness_SubtractWithNoBorrow :
    ∃ (x y : Reg) (s : State), x ≠ 0xF ∧ (Instr.subnVxVy x y, 0x8007, (s.getV y).toNat, (s.getV x).toNat) ∈
      [(.subVxVy x y, 0x8005, (s.getV x).toNat, (s.getV y).toNat),
        (.subnVxVy x y, 0x8007, (s.getV y).toNat, (s.getV x).toNat)] :=
  ⟨1, 2, State.reset, by decide, by simp⟩

theorem witness_ShiftsByOne :
    ∃ (x y : Reg) (s : State) (a : Nat),
      a = (if s.cfg.quirk = .chip8 then s.getV y else s.getV x).toNat ∧ x ≠ 0xF :=
  ⟨1, 2, withV [(2, 0x81)], 0x81, by decide, by decide⟩

/-- The glyph 0 at I = 0, drawn at the last column and row with VX = 63, VY = 31, over a lit pixel. -/
def atCorner : State := (withV [(0, 63), (1, 31)]).setFb (Framebuffer.clear.xorPixel 63 31 true)

/-- `atCorner` after the sprite is drawn. -/
def drawnAtCorner : State :=
  match exec (.drwVxVyN 0 1 15) atCorner with
  | .next t => t
  | _ => atCorner

/-- Two rows end at the last byte of RAM; a pixel is lit under a 1 bit, or none is. -/
theorem witness_SpriteIsXoredIn :
    (∃ s : State, s.CanAccess (s.spriteRows 1 2) ∧ s.i.toNat + s.spriteRows 1 2 = 0x1000) ∧
    (∃ s : State, s.CanAccess (s.spriteRows 1 15) ∧
      ∃ px py, px < 64 ∧ py < 32 ∧ s.spriteBit 0 1 15 px py = true ∧ s.fb.pixel px py = true) ∧
    (∃ s : State, s.CanAccess (s.spriteRows 1 15) ∧
      ∀ px py, px < 64 → py < 32 → s.spriteBit 0 1 15 px py = true → s.fb.pixel px py = false) ∧
    (∃ s : State, s.cfg.oobPolicy = .fault ∧ 0 < s.spriteRows 1 3 ∧ s.i.toNat + s.spriteRows 1 3 - 1 > 0xFFF ∧
      s.i = 0xFFE) :=
  ⟨⟨State.reset.setI 0xFFE, .inr (.inl (by decide)), by decide⟩,
    ⟨atCorner, .inr (.inl (by decide)), 63, 31, by decide, by decide, by decide, by decide⟩,
    ⟨State.reset, .inr (.inl (by decide)), fun px py _ _ _ => Framebuffer.pixel_clear px py⟩,
    State.reset.setI 0xFFE, rfl, by decide, by decide, rfl⟩

theorem witness_SpriteChangesOnlyItsRegion :
    ∃ (s t : State), exec (.drwVxVyN 0 1 15) s = .next t ∧ t.fb.pixel 63 31 ≠ s.fb.pixel 63 31 ∧
      s.CanAccess (s.spriteRows 1 15) :=
  ⟨atCorner, _, rfl, by decide, .inr (.inl (by decide))⟩

theorem witness_CollisionFlagLaw :
    ∃ (s t : State), s.CanAccess (s.spriteRows 1 15) ∧ exec (.drwVxVyN 0 1 15) s = .next t :=
  ⟨atCorner, _, .inr (.inl (by decide)), rfl⟩

/-- The clear framebuffer of the last clause is the reset state's. -/
theorem witness_SpriteInvolution_clear : ∀ px py, px < 64 → py < 32 → State.reset.fb.pixel px py = false :=
  fun px py _ _ => Framebuffer.pixel_clear px py

theorem witness_SpriteInvolution :
    ∃ (s t u : State), s.CanAccess (s.spriteRows 1 15) ∧ exec (.drwVxVyN 0 1 15) s = .next t ∧ u.cfg = s.cfg ∧
      u.getV 0 = s.getV 0 ∧ u.getV 1 = s.getV 1 ∧ u.i = s.i ∧ (∀ a, u.ramByte a = s.ramByte a) ∧ u.fb = t.fb :=
  ⟨atCorner, drawnAtCorner, atCorner.setFb drawnAtCorner.fb, .inr (.inl (by decide)), rfl, rfl, rfl, rfl, rfl,
    fun _ => rfl, rfl⟩

theorem witness_KeyWait :
    (∃ s : State, s.kwPhase = .idle ∧ ∀ k : KeyIndex, s.key.getLsbD k = false) ∧
    (∃ s : State, s.kwPhase = .idle ∧ s.key.getLsbD (15 : KeyIndex) = true ∧
      ∀ j : KeyIndex, j < 15 → s.key.getLsbD j = false) ∧
    (∃ s : State, s.kwPhase = .idle ∧ s.key.getLsbD (0 : KeyIndex) = true ∧
      ∀ j : KeyIndex, j < 0 → s.key.getLsbD j = false) ∧
    (∃ s : State, s.kwPhase = .held ∧ s.key.getLsbD s.kwKey = true) ∧
    (∃ s : State, s.kwPhase = .held ∧ s.key.getLsbD s.kwKey = false) :=
  ⟨⟨State.reset, rfl, by decide⟩, ⟨State.reset.setKey 0x8000, rfl, by decide, by decide⟩,
    ⟨State.reset.setKey 0xFFFF, rfl, by decide, by decide⟩,
    ⟨(State.reset.setKey 0x8000).setKw .held 15, rfl, by decide⟩, State.reset.setKw .held 15, rfl, by decide⟩

/-- The last place in RAM that takes the bytes, the wrap under MASK, and the first place that faults. -/
theorem witness_BcdStoresDigits :
    (∃ s : State, RamInv s ∧ s.CanAccess 3 ∧ s.i = 0xFFD) ∧
    (∃ s : State, RamInv s ∧ s.CanAccess 3 ∧ s.i = 0xFFFF) ∧
    (∃ s : State, s.cfg.oobPolicy = .fault ∧ s.i.toNat + 2 > 0xFFF ∧ s.i = 0xFFE) :=
  ⟨⟨State.reset.setI 0xFFD, ⟨by decide, by decide⟩, .inr (.inl (by decide)), rfl⟩,
    ⟨masked (State.reset.setI 0xFFFF), ⟨by decide, by decide⟩, .inr (.inr rfl), rfl⟩,
    State.reset.setI 0xFFE, rfl, by decide, rfl⟩

theorem witness_StoreRegisters :
    (∃ s : State, RamInv s ∧ s.CanAccess ((15 : Reg).val + 1) ∧ s.i = 0xFF0) ∧
    (∃ s : State, RamInv s ∧ s.CanAccess ((0 : Reg).val + 1) ∧ s.i = 0xFFF) ∧
    (∃ s : State, RamInv s ∧ s.CanAccess ((15 : Reg).val + 1) ∧ s.i = 0xFFFF) ∧
    (∃ s : State, s.cfg.oobPolicy = .fault ∧ s.i.toNat + (15 : Reg).val > 0xFFF ∧ s.i = 0xFF1) :=
  ⟨⟨State.reset.setI 0xFF0, ⟨by decide, by decide⟩, .inr (.inl (by decide)), rfl⟩,
    ⟨State.reset.setI 0xFFF, ⟨by decide, by decide⟩, .inr (.inl (by decide)), rfl⟩,
    ⟨masked (State.reset.setI 0xFFFF), ⟨by decide, by decide⟩, .inr (.inr rfl), rfl⟩,
    State.reset.setI 0xFF1, rfl, by decide, rfl⟩

theorem witness_LoadRegisters :
    (∃ s : State, s.CanAccess ((15 : Reg).val + 1) ∧ s.i = 0xFF0) ∧
    (∃ s : State, s.CanAccess ((15 : Reg).val + 1) ∧ s.i = 0xFFFF) ∧
    (∃ s : State, s.cfg.oobPolicy = .fault ∧ s.i.toNat + (0 : Reg).val > 0xFFF ∧ s.i = 0x1000) :=
  ⟨⟨State.reset.setI 0xFF0, .inr (.inl (by decide)), rfl⟩,
    ⟨masked (State.reset.setI 0xFFFF), .inr (.inr rfl), rfl⟩, State.reset.setI 0x1000, rfl, by decide, rfl⟩

/-! ### Witnesses: faults and whole-machine rules -/

/-- The two fetch addresses at the edge, a data access at the edge, and a machine under MASK that shows an old record. -/
theorem witness_AddressFaults :
    (∀ a ∈ [0xFFF#16, 0x1000#16], ∃ s : State, s.pc = a ∧ s.runState = .running ∧ s.frame = .slots (0 + 1) ∧
      s.cfg.oobPolicy = .fault ∧ s.pc.toNat + 1 > 0xFFF) ∧
    (∃ (i : Instr) (s : State), s.cfg.oobPolicy = .fault ∧ 0 < s.dataBytes i ∧ s.i.toNat + s.dataBytes i - 1 > 0xFFF ∧
      s.i = 0xFFE) ∧
    (∃ s t : State, s.cfg.oobPolicy = .mask ∧ step s = .next t ∧ t.faultCode = .fetchAddress) :=
  ⟨fun a ha => ⟨(State.reset.setPc a).setFrame (.slots 1), rfl, rfl, rfl, rfl, by
      rcases List.mem_pair.mp ha with rfl | rfl <;> decide⟩,
    ⟨.ldBVx 0, State.reset.setI 0xFFE, rfl, by decide, by decide, rfl⟩,
    masked ((State.reset.setPc 0xFFF).raiseFault .fetchAddress 0x1000), _, rfl, rfl, by decide⟩

theorem witness_StackFaults : (∃ s : State, s.sp = s.cfg.depth) ∧ (∃ s : State, s.sp = 0) :=
  ⟨⟨{ State.reset with sp := 12 }, by decide⟩, State.reset, rfl⟩

theorem witness_FaultsArePrecise :
    ∃ s t : State, s.runState = .running ∧ step s = .next t ∧ t.runState = .fault :=
  ⟨inFrame 0x00EE, _, rfl, rfl, by decide⟩

theorem witness_FaultsOfEachInstruction :
    ∃ (i : Instr) (s t : State), s.runState = .running ∧ exec i s = .next t ∧ t.runState = .fault :=
  ⟨.ret, State.reset, _, rfl, rfl, by decide⟩

/-- No clause's premises exclude every instruction: a SYS meets all of those that name writers, and a DXYN of no rows
meets that of the fault record, though with rows it could fault. -/
theorem witness_EachRegisterHasItsWriters :
    (∃ t, exec (.sys 0x123) State.reset = .next t ∧ (∀ nnn, Instr.sys 0x123 ≠ .call nnn) ∧ Instr.sys 0x123 ≠ .ret ∧
      State.reset.dataBytes (.sys 0x123) = 0) ∧
    (∃ t, exec (.drwVxVyN 0 1 0) State.reset = .next t ∧ State.reset.dataBytes (.drwVxVyN 0 1 0) = 0) :=
  ⟨⟨_, rfl, by simp, by simp, rfl⟩, _, rfl, by decide⟩

/-- R18, R20: the registers of a CHIP-8 logic instruction, and of an FX65. -/
theorem test_writtenRegs :
    State.reset.writtenRegs (.orVxVy 1 2) = [1, 0xF] ∧ (super State.reset).writtenRegs (.orVxVy 1 2) = [1] ∧
    State.reset.writtenRegs (.ldVxMem 2) = [0, 1, 2] := by decide

theorem witness_QuirkMattersToSeven :
    (∃ t, exec (.subVxVy 1 2) State.reset = .next t ∧ (∀ x y, Instr.subVxVy 1 2 ≠ .orVxVy x y) ∧
      (∀ x y, Instr.subVxVy 1 2 ≠ .andVxVy x y) ∧ (∀ x y, Instr.subVxVy 1 2 ≠ .xorVxVy x y) ∧
      (∀ x y, Instr.subVxVy 1 2 ≠ .shrVxVy x y) ∧ (∀ x y, Instr.subVxVy 1 2 ≠ .shlVxVy x y) ∧
      (∀ x, Instr.subVxVy 1 2 ≠ .ldMemVx x) ∧ (∀ x, Instr.subVxVy 1 2 ≠ .ldVxMem x)) ∧
    (∃ s t : State, s.cfg.quirk = .superChip ∧ exec (.shrVxVy 1 2) s = .next t) :=
  ⟨⟨_, rfl, by simp⟩, super State.reset, _, rfl, rfl⟩

/-! ### Witnesses: frames, run states, reset -/

theorem witness_StepsMakeOneFrame : State.reset.frame = .awaitTick := rfl

theorem witness_EndOfFrame : ∃ s : State, s.runState = .running ∧ s.frame = .slots 0 :=
  ⟨State.reset.setFrame (.slots 0), rfl, rfl⟩

theorem witness_PollAppliesEvents :
    State.reset.runState ≠ .quit ∧ (State.reset.poll [.keyDown 5]).runState ≠ .quit := by decide

/-- A program image of `n` bytes. -/
def image (n : Nat) : List Byte := List.replicate n 0

theorem image_length (n : Nat) : (image n).length = n := List.length_replicate

theorem witness_RunStateTransitions :
    (image 3584).length ≤ 3584 ∧
    (∀ rom, some (image 3585) = some rom → 3584 < rom.length) ∧
    (∃ (s t : State) (n : Nat), s.runState = .running ∧ s.frame = .slots n ∧ step s = .next t) ∧
    (∃ s t : State, (s.runState ≠ .running ∨ s.frame = .awaitTick) ∧ (s.inbox = [] ∨ s.inbox.head? = some []) ∧
      step s = .next t) :=
  ⟨(image_length _).le, fun rom h => by cases h; rw [image_length]; omega, ⟨State.reset.setFrame (.slots 0), _, 0, rfl, rfl, rfl⟩,
    State.reset, _, .inr rfl, .inl rfl, rfl⟩

theorem witness_PausedAndFaultOnlyPoll :
    (∃ s : State, s.runState = .paused ∧ HostEvent.reset ∉ s.inbox.headD []) ∧
    (∃ s : State, s.runState = .fault ∧ HostEvent.reset ∉ s.inbox.headD []) :=
  ⟨⟨{ State.reset with runState := .paused, inbox := [[.pauseToggle]] }, rfl, by decide⟩,
    { State.reset.raiseFault .stackUnderflow 0 with inbox := [[.keyDown 2, .pauseToggle]] }, rfl, by decide⟩

theorem witness_QuitIsTerminal : (State.reset.poll [.quit]).runState = .quit := by decide

/-- An image that fills RAM to its last byte, and a machine in QUIT. -/
theorem witness_ResetLeaves :
    (∃ s t : State, s.runState ≠ .quit ∧ t = s.poll [.reset] ∧ 3583 < s.cfg.rom.length ∧ 0x200 + 3583 < 0x1000) ∧
    (∃ s : State, s.runState = .quit) :=
  ⟨⟨State.init { Config.default with rom := image 3584 }, _, fun h => (by cases h), rfl,
    (image_length 3584).symm ▸ by decide, by decide⟩, State.reset.poll [.quit], by decide⟩

theorem witness_PowerOn :
    (image 3584).length ≤ 3584 ∧
    (∀ rom, some (image 3585) = some rom → 3584 < rom.length) ∧
    (∀ rom, (none : Option (List Byte)) = some rom → 3584 < rom.length) :=
  ⟨(image_length _).le, fun rom h => by cases h; rw [image_length]; omega, by rintro rom ⟨⟩⟩

theorem witness_ResetMeetsInvariants : Config.default.romFits = true := by decide

theorem inFrame_stackInv (w : Word) : StackInv (inFrame w) := by
  have h : (inFrame w).stack = Vector.replicate 16 0 ∧ (inFrame w).sp = 0 := ⟨rfl, rfl⟩
  refine ⟨by rw [h.2]; exact Nat.zero_le _, fun k _ => ?_⟩
  rw [State.slot, h.1]
  by_cases hk : k < 16 <;> simp [hk]

theorem witness_StepKeepsInvariants :
    ∃ s t : State, StackInv s ∧ RamInv s ∧ RecordInv s ∧ FrameInv s ∧ step s = .next t :=
  ⟨inFrame 0x2400, _, inFrame_stackInv _, ⟨by decide, by decide⟩,
    ⟨fun _ => ⟨rfl, rfl⟩, fun h => (by cases h), fun h => (by rcases h with h | h <;> cases h), fun _ => rfl⟩,
    ⟨fun h => absurd rfl h, fun n h => (by cases h; decide)⟩, rfl⟩

theorem witness_StepKeepsKeyWait : ∃ s t : State, s.kwPhase = .held ∧ KeyWaitInv s ∧ step s = .next t :=
  ⟨(inFrame 0xF30A).setKw .held 3, _, rfl, fun _ => ⟨0xF30A, 3, by decide, by decide⟩, rfl⟩

theorem witness_StepKeepsConfig : ∃ t, step State.reset = .next t := ⟨_, rfl⟩

/-- R38: the greatest IPF that its 32 bits hold is delivered, and the next one, QUIRK code 3 and depth 13 are refused. -/
theorem test_config_port :
    (Config.ofPort 2 16 1 (60 * 2 ^ 32 - 1) defaultFont).map Config.ipf = some (2 ^ 32 - 1) ∧
    Config.ofPort 2 16 1 (60 * 2 ^ 32) defaultFont = none ∧ Config.ofPort 3 16 1 500 defaultFont = none ∧
    Config.ofPort 0 13 0 500 defaultFont = none := by decide

theorem witness_ConfigurationPort : ∃ c, Config.ofPort 1 12 0 (60 * 2 ^ 32 - 1) defaultFont = some c := ⟨_, rfl⟩

theorem witness_CanonicalRamIsUnique :
    ∃ (c : Config) (m m' : Memory), Memory.wf c m = true ∧ Memory.wf c m' = true ∧
      ∀ a, a < 0x1000 → Memory.read c m a = Memory.read c m' a :=
  ⟨Config.default, [(0, 0x12), (0xFFF, 0x34)], _, by decide, by decide, fun _ _ => rfl⟩

end Sys2Proof.Tests
end

section
/-! ### A fault is precise (R14, R117, R132) -/

namespace Sys2Proof.Machine

/-- No host event makes a machine fault: faults are taken by instructions alone (R117, R127). -/
theorem State.applyEvent_keeps_not_fault (s : State) (e : HostEvent) (h : s.runState ≠ .fault) :
    (s.applyEvent e).runState ≠ .fault := by
  unfold State.applyEvent
  split
  · exact h
  · cases e with
    | keyDown k => exact h
    | keyUp k => exact h
    | pauseToggle => cases hr : s.runState <;> simp_all
    | reset => simp
    | quit => simp

/-- A tick does not make a machine fault. -/
theorem State.tick_keeps_not_fault (s : State) (h : s.runState ≠ .fault) : s.tick.runState ≠ .fault := by
  unfold State.tick
  split
  · exact h
  · exact State.poll_keeps (P := fun t => t.runState ≠ .fault) State.applyEvent_keeps_not_fault _ s.takeTick h

/-- Of the three kinds of a step only an instruction step can end in FAULT, and then it is `raiseFault` on the state
whose slot is taken. -/
theorem step_fault {s t : State} (hr : s.runState = .running) (h : step s = .next t) (hf : t.runState = .fault) :
    ∃ left c a, t = (s.takeSlot left).raiseFault c a := by
  rcases step_cases h with ⟨left, -, -, hi⟩ | ⟨-, -, rfl⟩ | ⟨-, rfl⟩
  · obtain ⟨t', ht', hc⟩ := State.runInstr_host (s := s.takeSlot left) hr
    obtain rfl : t' = t := Host.Outcome.next.inj (ht'.symm.trans hi)
    rcases hc with ⟨-, -, -, hrun, -⟩ | ⟨c, a, ht⟩
    · simp [hf, hr] at hrun
    · exact ⟨left, c, a, ht⟩
  · simp [hr] at hf
  · exact absurd hf (s.tick_keeps_not_fault (by simp [hr]))

/-- Settles O39: a step that ends in FAULT is an instruction step whose fault is taken by `raiseFault`, which writes
nothing but the record, the run state and the frame position. -/
theorem faultsArePrecise : Obligations.FaultsArePrecise := by
  intro s t hr h hf
  obtain ⟨left, c, a, rfl⟩ := step_fault hr h hf
  rfl

end Sys2Proof.Machine
end

section
/-! ### What QUIRK changes (R9)

Changing QUIRK commutes with every operation that does not read it, and, between two values that agree on being
CHIP-8, with the three that do: the shift source, the reset of VF by a logic instruction, and the increment of I. -/

namespace Sys2Proof

/-- The seven instructions whose meaning reads QUIRK (R9). -/
def Instr.readsQuirk : Instr → Bool
  | .orVxVy _ _ | .andVxVy _ _ | .xorVxVy _ _ | .shrVxVy _ _ | .shlVxVy _ _ | .ldMemVx _ | .ldVxMem _ => true
  | _ => false

end Sys2Proof

namespace Sys2Proof.Machine

/-- The state with another value of QUIRK. -/
def State.setQuirk (s : State) (q : Quirk) : State := { s with cfg := { s.cfg with quirk := q } }

/-- The same outcome, with another value of QUIRK in its state. -/
def Result.setQuirk (q : Quirk) : Result → Result
  | .next s => .next (s.setQuirk q)
  | .fault r => .fault r
  | .refused r => .refused r

@[simp] theorem State.setQuirk_quirk (s : State) (q : Quirk) : (s.setQuirk q).cfg.quirk = q := rfl

@[simp] theorem State.setRamBytes_cfg (s : State) (l : List (Nat × Byte)) : (s.setRamBytes l).cfg = s.cfg := by
  rw [State.setRamBytes_eq, State.setRam_cfg]

@[simp] theorem State.setVs_cfg (s : State) (k : Nat) (l : List Byte) : (s.setVs k l).cfg = s.cfg := by
  obtain ⟨h, -⟩ := s.setVs_host k l
  exact h

/-! #### Operations that do not read QUIRK -/

theorem State.skipIf_setQuirk (s : State) (q : Quirk) (b : Bool) :
    (s.setQuirk q).skipIf b = (s.skipIf b).setQuirk q := by
  cases b <;> rfl

/-- What reset leaves in RAM does not depend on QUIRK. -/
theorem Memory.read_setQuirk (c : Config) (q : Quirk) (m : Memory) (a : Nat) :
    Memory.read { c with quirk := q } m a = Memory.read c m a := by
  induction m with
  | nil => rfl
  | cons p m ih => simp only [Memory.read, ih]

theorem State.ramByte_setQuirk (s : State) (q : Quirk) : (s.setQuirk q).ramByte = s.ramByte :=
  funext fun a => Memory.read_setQuirk s.cfg q s.ram a

theorem State.setRamBytes_setQuirk (s : State) (q : Quirk) (l : List (Nat × Byte)) :
    (s.setQuirk q).setRamBytes l = (s.setRamBytes l).setQuirk q := by
  induction l generalizing s with
  | nil => rfl
  | cons p l ih => exact ih (s.setRamByte p.1 p.2)

theorem State.setVs_setQuirk (s : State) (q : Quirk) (k : Nat) (l : List Byte) :
    (s.setQuirk q).setVs k l = (s.setVs k l).setQuirk q := by
  induction l generalizing s k with
  | nil => rfl
  | cons b l ih =>
    simp only [State.setVs, ← ih]
    split <;> rfl

theorem State.withData_setQuirk (s : State) (q : Quirk) (n : Nat) {k k' : List Nat → State}
    (hk : ∀ ks, k' ks = (k ks).setQuirk q) : (s.setQuirk q).withData n k' = (s.withData n k).setQuirk q := by
  have ha : (s.setQuirk q).dataAddrs n = s.dataAddrs n := rfl
  rw [State.withData, State.withData, ha]
  cases s.dataAddrs n with
  | error a => rfl
  | ok ks => exact hk ks

theorem State.blit_setQuirk (s : State) (q : Quirk) (x y : Reg) (ks : List Nat) :
    (s.setQuirk q).blit x y ks = s.blit x y ks := by
  simp only [State.blit, State.ramByte_setQuirk]
  rfl

theorem execRet_setQuirk (s : State) (q : Quirk) : execRet (s.setQuirk q) = Result.setQuirk q (execRet s) := by
  rw [execRet, execRet, Result.setQuirk, apply_ite (State.setQuirk · q)]
  rfl

theorem execCall_setQuirk (nnn : BitVec 12) (s : State) (q : Quirk) :
    execCall nnn (s.setQuirk q) = Result.setQuirk q (execCall nnn s) := by
  rw [execCall, execCall, Result.setQuirk, apply_ite (State.setQuirk · q)]
  rfl

theorem execLdVxK_setQuirk (x : Reg) (s : State) (q : Quirk) :
    execLdVxK x (s.setQuirk q) = Result.setQuirk q (execLdVxK x s) := by
  have hp : (s.setQuirk q).kwPhase = s.kwPhase := rfl
  have hl : (s.setQuirk q).lowestHeld = s.lowestHeld := rfl
  have hk : (s.setQuirk q).keyHeld (s.setQuirk q).kwKey = s.keyHeld s.kwKey := rfl
  rw [execLdVxK, execLdVxK, hp, hl, hk]
  cases s.kwPhase with
  | idle => cases s.lowestHeld <;> rfl
  | held => cases s.keyHeld s.kwKey <;> rfl

theorem execDrw_setQuirk (x y : Reg) (n : BitVec 4) (s : State) (q : Quirk) :
    execDrw x y n (s.setQuirk q) = Result.setQuirk q (execDrw x y n s) :=
  congrArg Host.Outcome.next (s.withData_setQuirk q _ fun ks => by rw [State.blit_setQuirk]; rfl)

theorem execLdBVx_setQuirk (x : Reg) (s : State) (q : Quirk) :
    execLdBVx x (s.setQuirk q) = Result.setQuirk q (execLdBVx x s) :=
  congrArg Host.Outcome.next (s.withData_setQuirk q _ fun _ => s.advance.setRamBytes_setQuirk q _)

/-! #### Operations that read QUIRK -/

section Agree

variable {s : State} {q : Quirk} (hq : q = .chip8 ↔ s.cfg.quirk = .chip8)
include hq

theorem State.shiftSource_setQuirk (x y : Reg) : (s.setQuirk q).shiftSource x y = s.shiftSource x y := by
  simp only [State.shiftSource, State.setQuirk_quirk, hq]
  rfl

theorem State.setLogicResult_setQuirk (x : Reg) (r : Byte) :
    (s.setQuirk q).setLogicResult x r = (s.setLogicResult x r).setQuirk q := by
  simp only [State.setLogicResult, State.setQuirk_quirk, hq]
  split <;> rfl

theorem State.advanceI_setQuirk (x : Reg) : (s.setQuirk q).advanceI x = (s.advanceI x).setQuirk q := by
  simp only [State.advanceI, State.setQuirk_quirk, hq]
  split <;> rfl

theorem execShr_setQuirk (x y : Reg) : execShr x y (s.setQuirk q) = Result.setQuirk q (execShr x y s) := by
  rw [execShr, State.shiftSource_setQuirk hq]
  rfl

theorem execShl_setQuirk (x y : Reg) : execShl x y (s.setQuirk q) = Result.setQuirk q (execShl x y s) := by
  rw [execShl, State.shiftSource_setQuirk hq]
  rfl

theorem execLdMemVx_setQuirk (x : Reg) : execLdMemVx x (s.setQuirk q) = Result.setQuirk q (execLdMemVx x s) := by
  refine congrArg Host.Outcome.next (s.withData_setQuirk q _ fun ks => ?_)
  have hw := s.advance.setRamBytes_setQuirk q (ks.zip (s.regBytes x))
  exact (congrArg (State.advanceI · x) hw).trans (State.advanceI_setQuirk (by simpa using hq) x)

theorem execLdVxMem_setQuirk (x : Reg) : execLdVxMem x (s.setQuirk q) = Result.setQuirk q (execLdVxMem x s) := by
  refine congrArg Host.Outcome.next (s.withData_setQuirk q _ fun ks => ?_)
  have hw := s.advance.setVs_setQuirk q 0 (ks.map s.ramByte)
  rw [State.ramByte_setQuirk]
  exact (congrArg (State.advanceI · x) hw).trans (State.advanceI_setQuirk (by simpa using hq) x)

end Agree

/-- Changing QUIRK changes nothing of an instruction's result but QUIRK, if the instruction does not read it, or if the
old and the new value agree on being CHIP-8. -/
theorem exec_setQuirk (i : Instr) (s : State) (q : Quirk)
    (hq : i.readsQuirk = true → (q = .chip8 ↔ s.cfg.quirk = .chip8)) :
    exec i (s.setQuirk q) = Result.setQuirk q (exec i s) := by
  cases i
  case orVxVy x y => exact congrArg Host.Outcome.next (State.setLogicResult_setQuirk (s := s.advance) (hq rfl) _ _)
  case andVxVy x y => exact congrArg Host.Outcome.next (State.setLogicResult_setQuirk (s := s.advance) (hq rfl) _ _)
  case xorVxVy x y => exact congrArg Host.Outcome.next (State.setLogicResult_setQuirk (s := s.advance) (hq rfl) _ _)
  case shrVxVy x y => exact execShr_setQuirk (hq rfl) x y
  case shlVxVy x y => exact execShl_setQuirk (hq rfl) x y
  case ldMemVx x => exact execLdMemVx_setQuirk (hq rfl) x
  case ldVxMem x => exact execLdVxMem_setQuirk (hq rfl) x
  case ret => exact execRet_setQuirk s q
  case call nnn => exact execCall_setQuirk nnn s q
  case ldVxK x => exact execLdVxK_setQuirk x s q
  case drwVxVyN x y n => exact execDrw_setQuirk x y n s q
  case ldBVx x => exact execLdBVx_setQuirk x s q
  case seVxNn x nn => exact congrArg Host.Outcome.next (s.advance.skipIf_setQuirk q _)
  case sneVxNn x nn => exact congrArg Host.Outcome.next (s.advance.skipIf_setQuirk q _)
  case seVxVy x y => exact congrArg Host.Outcome.next (s.advance.skipIf_setQuirk q _)
  case sneVxVy x y => exact congrArg Host.Outcome.next (s.advance.skipIf_setQuirk q _)
  case skpVx x => exact congrArg Host.Outcome.next (s.advance.skipIf_setQuirk q _)
  case sknpVx x => exact congrArg Host.Outcome.next (s.advance.skipIf_setQuirk q _)
  all_goals rfl

/-- Settles O42: only seven instructions read QUIRK, and those only ask whether it is CHIP-8, which neither SUPER-CHIP
nor XO-CHIP is. -/
theorem quirkMattersToSeven : Obligations.QuirkMattersToSeven := by
  refine ⟨fun i s t q h hor hand hxor hshr hshl hst hld => ?_, fun i s t hs h => ?_⟩
  · have hi : i.readsQuirk = false := by
      cases i
      case orVxVy x y => exact absurd rfl (hor x y)
      case andVxVy x y => exact absurd rfl (hand x y)
      case xorVxVy x y => exact absurd rfl (hxor x y)
      case shrVxVy x y => exact absurd rfl (hshr x y)
      case shlVxVy x y => exact absurd rfl (hshl x y)
      case ldMemVx x => exact absurd rfl (hst x)
      case ldVxMem x => exact absurd rfl (hld x)
      all_goals rfl
    exact (exec_setQuirk i s q (by simp [hi])).trans (congrArg (Result.setQuirk q) h)
  · exact (exec_setQuirk i s .xoChip (by simp [hs])).trans (congrArg (Result.setQuirk .xoChip) h)

end Sys2Proof.Machine
end

section
/-! ### What each instruction may write -/

namespace Sys2Proof

/-- The parts of the state that an instruction may write, with `host` for those that can fault. -/
def Instr.writtenParts : Instr → List Machine.Part
  | .cls => [.fb, .pc]
  | .ret => [.sp, .pc, .host]
  | .call _ => [.stack, .sp, .pc, .host]
  | .sys _ | .jp _ | .jpV0Nnn _ | .seVxNn _ _ | .sneVxNn _ _ | .seVxVy _ _ | .sneVxVy _ _ | .skpVx _
  | .sknpVx _ => [.pc]
  | .ldVxNn _ _ | .addVxNn _ _ | .ldVxVy _ _ | .orVxVy _ _ | .andVxVy _ _ | .xorVxVy _ _ | .addVxVy _ _
  | .subVxVy _ _ | .shrVxVy _ _ | .subnVxVy _ _ | .shlVxVy _ _ | .ldVxDt _ => [.v, .pc]
  | .rndVxNn _ _ => [.v, .pc, .draws]
  | .ldINnn _ | .addIVx _ | .ldFVx _ => [.i, .pc]
  | .drwVxVyN _ _ _ => [.v, .fb, .pc, .host]
  | .ldVxK _ => [.v, .pc, .kw]
  | .ldDtVx _ => [.dt, .pc]
  | .ldStVx _ => [.st, .pc]
  | .ldBVx _ => [.ram, .pc, .host]
  | .ldMemVx _ => [.i, .ram, .pc, .host]
  | .ldVxMem _ => [.v, .i, .pc, .host]

section Writers

variable (i : Instr)

@[simp] theorem Instr.stack_mem_writtenParts : .stack ∈ i.writtenParts ↔ ∃ nnn, i = .call nnn := by
  cases i <;> simp [writtenParts]

@[simp] theorem Instr.sp_mem_writtenParts : .sp ∈ i.writtenParts ↔ i = .ret ∨ ∃ nnn, i = .call nnn := by
  cases i <;> simp [writtenParts]

@[simp] theorem Instr.dt_mem_writtenParts : .dt ∈ i.writtenParts ↔ ∃ x, i = .ldDtVx x := by
  cases i <;> simp [writtenParts]

@[simp] theorem Instr.st_mem_writtenParts : .st ∈ i.writtenParts ↔ ∃ x, i = .ldStVx x := by
  cases i <;> simp [writtenParts]

@[simp] theorem Instr.ram_mem_writtenParts :
    .ram ∈ i.writtenParts ↔ (∃ x, i = .ldBVx x) ∨ ∃ x, i = .ldMemVx x := by
  cases i <;> simp [writtenParts]

@[simp] theorem Instr.fb_mem_writtenParts : .fb ∈ i.writtenParts ↔ i = .cls ∨ ∃ x y n, i = .drwVxVyN x y n := by
  cases i <;> simp [writtenParts]

@[simp] theorem Instr.i_mem_writtenParts :
    .i ∈ i.writtenParts ↔ (∃ nnn, i = .ldINnn nnn) ∨ (∃ x, i = .addIVx x) ∨ (∃ x, i = .ldFVx x) ∨
      (∃ x, i = .ldMemVx x) ∨ ∃ x, i = .ldVxMem x := by
  cases i <;> simp [writtenParts]

@[simp] theorem Instr.kw_mem_writtenParts : .kw ∈ i.writtenParts ↔ ∃ x, i = .ldVxK x := by
  cases i <;> simp [writtenParts]

@[simp] theorem Instr.draws_mem_writtenParts : .draws ∈ i.writtenParts ↔ ∃ x nn, i = .rndVxNn x nn := by
  cases i <;> simp [writtenParts]

end Writers

end Sys2Proof

namespace Sys2Proof.Machine

/-! #### Frames of the operations that choose an update -/

theorem State.skipIf_same (s : State) (b : Bool) : SameExcept [.pc] s (s.skipIf b) := by
  intro p hp
  cases b <;> cases p <;> simp_all [State.skipIf, Part.Same]

theorem State.setLogicResult_same (s : State) (x : Reg) (r : Byte) : SameExcept [.v] s (s.setLogicResult x r) := by
  unfold State.setLogicResult
  split
  · exact (s.setResultFlag_spec x r false).2.2.2
  · intro p hp
    cases p <;> simp_all [Part.Same]

theorem State.raiseFault_same (s : State) (c : FaultCode) (a : Nat) : SameExcept [.host] s (s.raiseFault c a) := by
  intro p hp
  cases p <;> simp_all [Part.Same]

/-- A data access writes what its body writes, or the fault record. -/
theorem State.withData_same {ps : List Part} {s : State} (n : Nat) {k : List Nat → State} (hh : .host ∈ ps)
    (hk : ∀ ks, SameExcept ps s (k ks)) : SameExcept ps s (s.withData n k) := by
  rcases s.withData_cases n k with ⟨h, -⟩ | ⟨h, -⟩
  · exact h ▸ hk _
  · exact h ▸ (s.raiseFault_same _ _).mono (by simpa using hh)

/-- A sequence of frames: each operation's parts are among those of the whole. -/
theorem SameExcept.append {ps qs : List Part} {s t u : State} (h : SameExcept ps s t) (h' : SameExcept qs t u) :
    SameExcept (ps ++ qs) s u :=
  (h.mono (List.subset_append_left ps qs)).trans (h'.mono (List.subset_append_right ps qs))

theorem execLdVxK_same (x : Reg) {s t : State} (h : execLdVxK x s = .next t) : SameExcept [.v, .pc, .kw] s t := by
  obtain rfl := Host.Outcome.next.inj h
  intro p hp
  cases s.kwPhase with
  | idle => cases s.lowestHeld <;> cases p <;> simp_all [Part.Same]
  | held => cases s.keyHeld s.kwKey <;> cases p <;> simp_all [Part.Same]

theorem execLdBVx_same (x : Reg) {s t : State} (h : execLdBVx x s = .next t) :
    SameExcept [.pc, .ram, .host] s t := by
  obtain rfl := Host.Outcome.next.inj h
  exact State.withData_same _ (by simp) fun ks =>
    (s.advance_same.append (State.setRamBytes_same _ _)).mono (by simp)

theorem execLdMemVx_same (x : Reg) {s t : State} (h : execLdMemVx x s = .next t) :
    SameExcept [.pc, .ram, .i, .host] s t := by
  obtain rfl := Host.Outcome.next.inj h
  exact State.withData_same _ (by simp) fun ks =>
    ((s.advance_same.append (State.setRamBytes_same _ _)).append (State.advanceI_same _ x)).mono (by simp)

theorem execLdVxMem_same (x : Reg) {s t : State} (h : execLdVxMem x s = .next t) :
    SameExcept [.pc, .v, .i, .host] s t := by
  obtain rfl := Host.Outcome.next.inj h
  exact State.withData_same _ (by simp) fun ks =>
    ((s.advance_same.append (State.setVs_same _ _ _)).append (State.advanceI_same _ x)).mono (by simp)

theorem execDrw_same (x y : Reg) (n : BitVec 4) {s t : State} (h : execDrw x y n s = .next t) :
    SameExcept [.v, .fb, .pc, .host] s t := by
  obtain rfl := Host.Outcome.next.inj h
  refine State.withData_same _ (by simp) fun ks p hp => ?_
  cases p <;> simp_all [Part.Same]

theorem execRet_same {s t : State} (h : execRet s = .next t) : SameExcept [.sp, .pc, .host] s t := by
  obtain rfl := Host.Outcome.next.inj h
  split
  · exact (s.raiseFault_same _ _).mono (by simp)
  · intro p hp
    cases p <;> simp_all [Part.Same]

theorem execCall_same (nnn : BitVec 12) {s t : State} (h : execCall nnn s = .next t) :
    SameExcept [.stack, .sp, .pc, .host] s t := by
  obtain rfl := Host.Outcome.next.inj h
  split
  · exact (s.raiseFault_same _ _).mono (by simp)
  · intro p hp
    cases p <;> simp_all [Part.Same]

/-! #### One instruction -/

/-- An instruction leaves every part as it was but those of `writtenParts`. -/
theorem exec_same {i : Instr} {s t : State} (h : exec i s = .next t) : SameExcept i.writtenParts s t := by
  cases i
  case ret => exact execRet_same h
  case call nnn => exact execCall_same nnn h
  case drwVxVyN x y n => exact execDrw_same x y n h
  case ldVxK x => exact execLdVxK_same x h
  case ldBVx x => exact (execLdBVx_same x h).mono (by simp [Instr.writtenParts])
  case ldMemVx x => exact (execLdMemVx_same x h).mono (by simp [Instr.writtenParts])
  case ldVxMem x => exact (execLdVxMem_same x h).mono (by simp [Instr.writtenParts])
  all_goals obtain rfl := Host.Outcome.next.inj h
  case orVxVy | andVxVy | xorVxVy =>
    exact (s.advance_same.append (State.setLogicResult_same _ _ _)).mono (by simp [Instr.writtenParts])
  case seVxNn | sneVxNn | seVxVy | sneVxVy | skpVx | sknpVx =>
    exact s.advance_same.trans (State.skipIf_same _ _)
  all_goals
    intro p hp
    cases p <;> simp_all [Part.Same, Instr.writtenParts]

/-! #### RAM as data -/

@[simp] theorem State.skipIf_ram (s : State) (b : Bool) : (s.skipIf b).ram = s.ram := by cases b <;> rfl

@[simp] theorem State.setLogicResult_ram (s : State) (x : Reg) (r : Byte) : (s.setLogicResult x r).ram = s.ram := by
  unfold State.setLogicResult
  split <;> rfl

@[simp] theorem State.advanceI_ram (s : State) (x : Reg) : (s.advanceI x).ram = s.ram := by
  unfold State.advanceI
  split <;> rfl

@[simp] theorem State.setVs_ram (s : State) (k : Nat) (l : List Byte) : (s.setVs k l).ram = s.ram := by
  induction l generalizing s k with
  | nil => rfl
  | cons b l ih =>
    rw [State.setVs, ih]
    split <;> rfl

/-- A data access keeps RAM if its body does. -/
theorem State.withData_ram {s : State} (n : Nat) {k : List Nat → State} (hk : ∀ ks, (k ks).ram = s.ram) :
    (s.withData n k).ram = s.ram := by
  rcases s.withData_cases n k with ⟨h, -⟩ | ⟨h, -⟩
  · exact h ▸ hk _
  · exact h ▸ s.raiseFault_ram _ _

/-- An instruction that does not write RAM keeps it as data, not only byte by byte. -/
theorem exec_ram {i : Instr} {s t : State} (h : exec i s = .next t) (hi : .ram ∉ i.writtenParts) : t.ram = s.ram := by
  cases i
  case ldBVx | ldMemVx => simp at hi
  all_goals obtain rfl := Host.Outcome.next.inj h
  case ret | call => split <;> rfl
  case drwVxVyN => exact State.withData_ram _ fun _ => rfl
  case ldVxMem => exact State.withData_ram _ fun _ => by simp
  case ldVxK =>
    cases s.kwPhase with
    | idle => cases s.lowestHeld <;> rfl
    | held => cases s.keyHeld s.kwKey <;> rfl
  all_goals simp

/-! #### Data registers -/

theorem SameRegsExcept.setV (s : State) (x : Reg) (b : Byte) : SameRegsExcept [x] s (s.setV x b) := by
  intro z hz
  simp_all [eq_comm]

theorem State.setLogicResult_sameRegs (s : State) (x : Reg) (r : Byte) :
    SameRegsExcept (if s.cfg.quirk = .chip8 then [x, vf] else [x]) s (s.setLogicResult x r) := by
  unfold State.setLogicResult
  split
  · exact (s.setResultFlag_spec x r false).2.2.1
  · exact .setV s x r

theorem State.withData_sameRegs {xs : List Reg} {s : State} (n : Nat) {k : List Nat → State}
    (hk : ∀ ks, SameRegsExcept xs s (k ks)) : SameRegsExcept xs s (s.withData n k) := by
  rcases s.withData_cases n k with ⟨h, -⟩ | ⟨h, -⟩
  · exact h ▸ hk _
  · exact h ▸ fun _ _ => rfl

theorem execLdVxK_sameRegs (x : Reg) {s t : State} (h : execLdVxK x s = .next t) : SameRegsExcept [x] s t := by
  obtain rfl := Host.Outcome.next.inj h
  cases s.kwPhase with
  | idle => cases s.lowestHeld <;> exact fun _ _ => rfl
  | held =>
    cases s.keyHeld s.kwKey
    · exact .setV s x _
    · exact fun _ _ => rfl

/-- FX65 loads V0 to V[X] and keeps the registers above (R116). -/
theorem execLdVxMem_sameRegs (x : Reg) {s t : State} (h : execLdVxMem x s = .next t) :
    SameRegsExcept ((List.finRange 16).filter fun k => k ≤ x) s t := by
  obtain rfl := Host.Outcome.next.inj h
  intro z hz
  have hxz : x.val < z.val := by simpa using hz
  rcases s.withData_cases (x.val + 1) _ with ⟨ht, -⟩ | ⟨ht, -⟩ <;> rw [ht]
  · have hlen : ((ramIndexes s.i.toNat (x.val + 1)).map s.ramByte).length = x.val + 1 := by simp
    rw [State.advanceI_same _ x .v (by simp), State.getV_setVs _ _ _ (by omega), dif_neg (by omega), State.getV_advance]
  · rfl

/-- An instruction leaves every data register as it was but those of `writtenRegs`. -/
theorem exec_sameRegs {i : Instr} {s t : State} (h : exec i s = .next t) : SameRegsExcept (s.writtenRegs i) s t := by
  cases i
  case ldVxK x => exact execLdVxK_sameRegs x h
  case ldVxMem x => exact execLdVxMem_sameRegs x h
  case cls | ret | sys | jp | call | jpV0Nnn | seVxNn | sneVxNn | seVxVy | sneVxVy | skpVx | sknpVx | ldINnn | ldDtVx
    | ldStVx | addIVx | ldFVx | ldBVx | ldMemVx =>
    exact fun z _ => exec_same h .v (by simp [Instr.writtenParts]) z
  all_goals obtain rfl := Host.Outcome.next.inj h
  case orVxVy | andVxVy | xorVxVy => exact s.advance.setLogicResult_sameRegs _ _
  case addVxVy | subVxVy | shrVxVy | subnVxVy | shlVxVy => exact (s.advance.setResultFlag_spec _ _ _).2.2.1
  case drwVxVyN => exact State.withData_sameRegs _ fun _ => .setV _ _ _
  case rndVxNn x nn => exact .setV s.advance.countDraw x _
  all_goals exact .setV s.advance _ _

/-! #### The host's part -/

/-- Whether it completes or faults, an instruction keeps the configuration, the keypad latch and the tone flag. -/
theorem exec_keeps_host_inputs {i : Instr} {s t : State} (h : exec i s = .next t) :
    t.cfg = s.cfg ∧ t.key = s.key ∧ t.toneActive = s.toneActive := by
  obtain ⟨t', h', hc⟩ := exec_cases i s
  obtain rfl := Host.Outcome.next.inj (h'.symm.trans h)
  rcases hc with ⟨hcfg, hkey, htone, -⟩ | hf
  · exact ⟨hcfg, hkey, htone⟩
  · obtain ⟨c, a, rfl, -⟩ := hf.taken
    exact ⟨rfl, rfl, rfl⟩

/-- An instruction that is neither CALL nor RET and accesses no data byte cannot fault: it keeps the host's part. A DXYN
that draws no row is the one of these that `mayFault` does not rule out. -/
theorem exec_host_of_no_data {i : Instr} {s t : State} (h : exec i s = .next t) (hcall : ∀ nnn, i ≠ .call nnn)
    (hret : i ≠ .ret) (hd : s.dataBytes i = 0) : Part.Same s t .host := by
  by_cases hw : .host ∈ i.writtenParts
  · cases i
    case drwVxVyN x y n =>
      obtain rfl := Host.Outcome.next.inj h
      have hn : s.spriteRows y n = 0 := hd
      simp [hn, State.withData, State.dataAddrs, addrRange, Part.Same]
    all_goals simp_all [Instr.writtenParts, State.dataBytes]
  · exact exec_same h .host hw

/-- Settles O41: each clause is the frame of the instruction at one part of the state, `exec_same`, read through the
instructions that write this part. -/
theorem eachRegisterHasItsWriters : Obligations.EachRegisterHasItsWriters := by
  intro i s t h
  have same := exec_same h
  refine ⟨exec_sameRegs h, fun hc => same .stack ?_, fun hc hr => same .sp ?_, fun hx => same .dt ?_,
    fun hx => same .st ?_, fun hb hm => exec_ram h ?_, fun hc hx => same .fb ?_, fun hn ha hf hm hv => same .i ?_,
    fun hx => same .kw ?_, fun hx => same .draws ?_, fun hc hr hd => ?_, exec_keeps_host_inputs h⟩
  case refine_10 =>
    obtain ⟨-, -, -, hrun, hcode, hpc, haddr, -⟩ := exec_host_of_no_data h hc hr hd
    exact ⟨hrun, hcode, hpc, haddr⟩
  all_goals simp_all

end Sys2Proof.Machine
end

section
/-! ### Canonical RAM (R29, R55) -/

namespace Sys2Proof.Machine

/-- The cells that a canonical memory lists are told by its reads: those bytes of RAM that differ from what reset left
there. -/
theorem Memory.mem_iff_read (c : Config) {m : Memory} (h : Memory.wf c m = true) (p : Host.Cell) :
    p ∈ m ↔ p.1 < 0x1000 ∧ Memory.read c m p.1 = p.2 ∧ p.2 ≠ resetByte c p.1 := by
  induction m with
  | nil => simp [Memory.read, eq_comm]
  | cons q m ih =>
    rw [Memory.wf_iff, List.pairwise_cons] at h
    obtain ⟨⟨hlt, hpair⟩, hcells⟩ := h
    have hm : Memory.wf c m = true :=
      (Memory.wf_iff c m).mpr ⟨hpair, fun r hr => hcells r (List.mem_cons_of_mem q hr)⟩
    rw [List.mem_cons, ih hm, Memory.read]
    by_cases hq : q.1 = p.1
    · have hbelow : Memory.read c m p.1 = resetByte c p.1 := Memory.read_below c (hq ▸ hlt)
      have hcell := hcells q List.mem_cons_self
      rw [if_pos hq, hbelow]
      constructor
      · rintro (rfl | ⟨-, h1, h2⟩)
        · exact ⟨hcell.1, rfl, hcell.2⟩
        · exact absurd h1.symm h2
      · rintro ⟨-, h1, -⟩
        exact .inl (Prod.ext hq.symm h1.symm)
    · have hne : p ≠ q := fun h => hq (h ▸ rfl)
      rw [if_neg hq, or_iff_right hne]

/-- Settles O57: the bytes tell which cells are listed, and the order of the list is by address. -/
theorem canonicalRamIsUnique : Obligations.CanonicalRamIsUnique := by
  intro c m m' hm hm' hread
  have : Std.Irrefl fun p q : Host.Cell => p.1 < q.1 := ⟨fun p => Nat.lt_irrefl p.1⟩
  have : Std.Antisymm fun p q : Host.Cell => p.1 < q.1 := ⟨fun p q h h' => absurd h (Nat.lt_asymm h')⟩
  refine ((Memory.wf_iff c m).mp hm).1.eq_of_mem_iff ((Memory.wf_iff c m').mp hm').1 fun p => ?_
  rw [Memory.mem_iff_read c hm, Memory.mem_iff_read c hm']
  exact and_congr_right fun hp => by rw [hread p.1 hp]

end Sys2Proof.Machine
end

section
/-! ### The configuration port (R38) -/

namespace Sys2Proof

theorem quirkOfBits_eq_none (b : BitVec 2) : quirkOfBits b = none ↔ b = 3 := by
  revert b
  decide

theorem quirkOfBits_bits {b : BitVec 2} {q : Quirk} (h : quirkOfBits b = some q) : q.bits = b := by
  cases q <;> (revert b; decide)

theorem stackDepthOfBits_eq_none (b : BitVec 5) : stackDepthOfBits b = none ↔ b ≠ 12 ∧ b ≠ 16 := by
  revert b
  decide

theorem stackDepthOfBits_bits {b : BitVec 5} {d : StackDepth} (h : stackDepthOfBits b = some d) : d.bits = b := by
  cases d <;> (revert b; decide)

theorem oobPolicyOfBit_bits (b : BitVec 1) : (oobPolicyOfBit b).bits = b := by
  revert b
  decide

theorem StackDepth.bits_toNat (d : StackDepth) : d.bits.toNat = d.slots := by cases d <;> rfl

/-- The bound of `InstsPerSecond` is the one of CONFIG.ipf: IPF fits 32 bits. -/
theorem instsPerSecondOfNat_eq_none (n : Nat) : instsPerSecondOfNat n = none ↔ 2 ^ 32 ≤ n / 60 := by
  have hnone : instsPerSecondOfNat n = none ↔ 60 * 2 ^ 32 ≤ n := by simp [instsPerSecondOfNat]
  rw [hnone]
  omega

theorem instsPerSecondOfNat_val {n : Nat} {k : InstsPerSecond} (h : instsPerSecondOfNat n = some k) : k.val = n := by
  unfold instsPerSecondOfNat at h
  split at h
  · cases h; rfl
  · cases h

/-- The port delivers a configuration where each of the three checked values is accepted. -/
theorem Config.ofPort_eq_some {quirk : BitVec 2} {depth : BitVec 5} {oob : BitVec 1} {ips : Nat} {font : Vector Byte 80}
    {c : Config} (h : Config.ofPort quirk depth oob ips font = some c) :
    ∃ q d n, quirkOfBits quirk = some q ∧ stackDepthOfBits depth = some d ∧ instsPerSecondOfNat ips = some n ∧
      c = ⟨q, d, oobPolicyOfBit oob, n, font, []⟩ := by
  unfold Config.ofPort at h
  split at h
  next q d n hq hd hn => exact ⟨q, d, n, hq, hd, hn, (Option.some.inj h).symm⟩
  next => cases h

theorem Config.ofPort_eq_none (quirk : BitVec 2) (depth : BitVec 5) (oob : BitVec 1) (ips : Nat)
    (font : Vector Byte 80) : Config.ofPort quirk depth oob ips font = none ↔
      quirkOfBits quirk = none ∨ stackDepthOfBits depth = none ∨ instsPerSecondOfNat ips = none := by
  unfold Config.ofPort
  cases quirkOfBits quirk <;> cases stackDepthOfBits depth <;> cases instsPerSecondOfNat ips <;> simp

/-- Settles O58: the port refuses where one of its three checks does, and each accepted field reads back. -/
theorem configurationPort : Obligations.ConfigurationPort := by
  intro quirk depth oob ips font
  constructor
  · rw [Config.ofPort_eq_none, quirkOfBits_eq_none, stackDepthOfBits_eq_none, instsPerSecondOfNat_eq_none]
  · intro c h
    obtain ⟨q, d, n, hq, hd, hn, rfl⟩ := Config.ofPort_eq_some h
    have hipf : Config.ipf ⟨q, d, oobPolicyOfBit oob, n, font, []⟩ = ips / 60 :=
      congrArg (· / 60) (instsPerSecondOfNat_val hn)
    have hdepth : d.bits = depth := stackDepthOfBits_bits hd
    refine ⟨quirkOfBits_bits hq, hdepth, oobPolicyOfBit_bits oob, (Machine.Config.ipfBits_toNat _).trans hipf, hipf,
      ?_, rfl⟩
    rw [← hdepth, StackDepth.bits_toNat]
    rfl

end Sys2Proof
end

section
/-! ### What a step keeps (R37, R41)

An event, a tick, an instruction step and the end of a frame are each told once; an invariant of `step` is then one
application of `step_keeps`. -/

namespace Sys2Proof.Machine

/-- All that a host event can do (R127, R137): nothing, a change of the latch, a change of the run state, a reset. -/
theorem State.applyEvent_cases (s : State) (e : HostEvent) :
    s.applyEvent e = s ∨ (∃ k, s.applyEvent e = s.setKey k) ∨ s.applyEvent e = s.hostReset ∨
      ∃ r, s.applyEvent e = s.setRunState r ∧
        (r = .quit ∨ ((s.runState = .running ∨ s.runState = .paused) ∧ (r = .running ∨ r = .paused))) := by
  unfold State.applyEvent
  split
  · exact .inl rfl
  · cases e with
    | keyDown k => exact .inr (.inl ⟨_, rfl⟩)
    | keyUp k => exact .inr (.inl ⟨_, rfl⟩)
    | pauseToggle =>
      cases hr : s.runState with
      | running => exact .inr (.inr (.inr ⟨.paused, rfl, .inr ⟨.inl rfl, .inr rfl⟩⟩))
      | paused => exact .inr (.inr (.inr ⟨.running, rfl, .inr ⟨.inr rfl, .inl rfl⟩⟩))
      | quit => exact .inl rfl
      | fault => exact .inl rfl
    | reset => exact .inr (.inr (.inl rfl))
    | quit => exact .inr (.inr (.inr ⟨_, rfl, .inl rfl⟩))

/-- A property that the parts of a step keep, the step keeps. -/
theorem step_keeps {P : State → Prop} (htick : ∀ s, P s → P s.takeTick) (hevent : ∀ s e, P s → P (s.applyEvent e))
    (hframe : ∀ s f, P s → P (s.setFrame f)) (hend : ∀ s, P s → P s.endFrame)
    (hslot : ∀ s n, P s → P (s.takeSlot n))
    (hrun : ∀ s t, s.runState = .running → s.runInstr = .next t → P s → P t)
    {s t : State} (hs : P s) (h : step s = .next t) : P t := by
  rcases step_cases h with ⟨left, hr, -, hi⟩ | ⟨-, -, rfl⟩ | ⟨-, rfl⟩
  · exact hrun (s.takeSlot left) t hr hi (hslot s left hs)
  · exact hend s hs
  · unfold State.tick
    split
    · exact htick s hs
    · exact hframe _ _ (State.poll_keeps hevent _ _ (htick s hs))

/-- A property that instructions, the no-op of an unassigned word and a fetch fault keep, an instruction step keeps. -/
theorem State.runInstr_keeps {P : State → Prop} (hexec : ∀ i s t, exec i s = .next t → P s → P t)
    (hnop : ∀ s w, P s → P (s.unknownOpcode w)) (hfault : ∀ s a, P s → P (s.raiseFault .fetchAddress a))
    {s t : State} (hs : P s) (h : s.runInstr = .next t) : P t := by
  obtain ⟨t', ht', hc⟩ := s.runInstr_cases
  obtain rfl := Host.Outcome.next.inj (ht'.symm.trans h)
  rcases hc with ⟨w, i, -, -, hi⟩ | ⟨w, r, -, -, rfl⟩ | ⟨-, rfl, -⟩
  · exact hexec i s _ hi hs
  · exact hnop s w hs
  · exact hfault s _ hs

/-! #### The configuration -/

/-- Settles O56: each part of a step keeps the configuration. -/
theorem stepKeepsConfig : Obligations.StepKeepsConfig := by
  intro s t h
  refine step_keeps (P := fun u => u.cfg = s.cfg) (fun _ hu => hu) (fun u e hu => (u.applyEvent_cfg e).trans hu)
    (fun _ _ hu => hu) (fun _ hu => hu) (fun _ _ hu => hu) (fun u t _ hi hu => ?_) rfl h
  exact State.runInstr_keeps (P := fun u => u.cfg = s.cfg)
    (fun i u t hi hu => (exec_keeps_host_inputs hi).1.trans hu) (fun _ _ hu => hu) (fun _ _ hu => hu) hu hi

/-! #### After reset -/

theorem State.slot_init (c : Config) (k : Nat) : (State.init c).slot k = 0 := by
  by_cases hk : k < 16 <;> simp [State.slot, State.init, hk]

theorem stackInv_init (c : Config) : StackInv (State.init c) := ⟨Nat.zero_le _, fun k _ => State.slot_init c k⟩

theorem recordInv_init (c : Config) : RecordInv (State.init c) := by simp [RecordInv, State.init]

theorem frameInv_init (c : Config) : FrameInv (State.init c) := by simp [FrameInv, State.init]

theorem keyWaitInv_init (c : Config) : KeyWaitInv (State.init c) := by simp [KeyWaitInv, State.init]

/-- Settles O53: after reset the stack, the listed cells of RAM and the fault record are empty, the machine awaits a
tick, and no key is waited for. -/
theorem resetMeetsInvariants : Obligations.ResetMeetsInvariants := fun c hc =>
  ⟨stackInv_init c, ⟨Memory.nil_wf c, hc⟩, recordInv_init c, frameInv_init c, keyWaitInv_init c⟩

/-! #### The call stack -/

/-- `StackInv` reads only the configuration, SP and the slots. -/
theorem StackInv.congr {s t : State} (hs : StackInv s) (hcfg : t.cfg = s.cfg) (hsp : t.sp = s.sp)
    (hstack : t.stack = s.stack) : StackInv t := by
  unfold StackInv State.slot at hs ⊢
  rwa [hcfg, hsp, hstack]

theorem execRet_stackInv {s t : State} (h : execRet s = .next t) (hs : StackInv s) : StackInv t := by
  obtain rfl := Host.Outcome.next.inj h
  obtain ⟨hle, hslots⟩ := hs
  split
  · exact ⟨hle, hslots⟩
  · exact ⟨(Nat.sub_le _ _).trans hle, hslots⟩

/-- The push goes to a slot that exists, below STACK_DEPTH. -/
theorem execCall_stackInv (nnn : BitVec 12) {s t : State} (h : execCall nnn s = .next t) (hs : StackInv s) :
    StackInv t := by
  obtain rfl := Host.Outcome.next.inj h
  obtain ⟨hle, hslots⟩ := hs
  split
  next => exact ⟨hle, hslots⟩
  next hfree =>
    have hsp : s.sp < 16 := (Nat.lt_of_not_le hfree).trans_le (Config.depth_le s.cfg)
    refine ⟨Nat.lt_of_not_le hfree, fun k hk => ?_⟩
    have hne : k ≠ s.sp := fun he => hfree (he ▸ hk)
    exact (State.slot_push s.advance _ hsp k).trans ((if_neg hne).trans (hslots k hk))

theorem exec_stackInv (i : Instr) (s t : State) (h : exec i s = .next t) (hs : StackInv s) : StackInv t := by
  by_cases hsp : .sp ∈ i.writtenParts
  · rcases (Instr.sp_mem_writtenParts i).mp hsp with rfl | ⟨nnn, rfl⟩
    · exact execRet_stackInv h hs
    · exact execCall_stackInv nnn h hs
  · have hstack : .stack ∉ i.writtenParts := fun hmem =>
      hsp ((Instr.sp_mem_writtenParts i).mpr (.inr ((Instr.stack_mem_writtenParts i).mp hmem)))
    exact hs.congr (exec_keeps_host_inputs h).1 (exec_same h .sp hsp) (exec_same h .stack hstack)

theorem StackInv.applyEvent (s : State) (e : HostEvent) (hs : StackInv s) : StackInv (s.applyEvent e) := by
  rcases s.applyEvent_cases e with h | ⟨k, h⟩ | h | ⟨r, h, -⟩ <;> rw [h]
  case inr.inr.inl => exact stackInv_init s.cfg
  all_goals exact hs

theorem StackInv.step {s t : State} (hs : StackInv s) (h : step s = .next t) : StackInv t :=
  step_keeps (fun _ h => h) StackInv.applyEvent (fun _ _ h => h) (fun _ h => h) (fun _ _ h => h)
    (fun _ _ _ hi hs => State.runInstr_keeps exec_stackInv (fun _ _ h => h) (fun _ _ h => h) hs hi) hs h

/-! #### RAM -/

/-- `RamInv` reads only the configuration and RAM. -/
theorem RamInv.congr {s t : State} (hs : RamInv s) (hcfg : t.cfg = s.cfg) (hram : t.ram = s.ram) : RamInv t := by
  unfold RamInv at hs ⊢
  rwa [hcfg, hram]

/-- Bytes written at RAM indexes. -/
theorem RamInv.setRamBytes {s : State} (hs : RamInv s) (a n : Nat) (bs : List Byte) :
    RamInv (s.setRamBytes ((ramIndexes a n).zip bs)) := by
  obtain ⟨hwf, hrom⟩ := hs
  rw [RamInv, State.setRamBytes_cfg]
  exact ⟨State.setRamBytes_wf hwf fun p hp => ramIndexes_lt (List.of_mem_zip hp).1, hrom⟩

theorem execLdBVx_ramInv (x : Reg) {s t : State} (h : execLdBVx x s = .next t) (hs : RamInv s) : RamInv t := by
  obtain rfl := Host.Outcome.next.inj h
  rcases s.withData_cases 3 _ with ⟨ht, -⟩ | ⟨ht, -⟩ <;> rw [ht]
  · exact RamInv.setRamBytes (s := s.advance) hs _ _ _
  · exact hs

theorem execLdMemVx_ramInv (x : Reg) {s t : State} (h : execLdMemVx x s = .next t) (hs : RamInv s) : RamInv t := by
  obtain rfl := Host.Outcome.next.inj h
  rcases s.withData_cases (x.val + 1) _ with ⟨ht, -⟩ | ⟨ht, -⟩ <;> rw [ht]
  · obtain ⟨hcfg, -⟩ := State.advanceI_host (s.advance.setRamBytes _) x
    exact (RamInv.setRamBytes (s := s.advance) hs _ _ _).congr hcfg (State.advanceI_ram _ x)
  · exact hs

theorem exec_ramInv (i : Instr) (s t : State) (h : exec i s = .next t) (hs : RamInv s) : RamInv t := by
  by_cases hram : .ram ∈ i.writtenParts
  · rcases (Instr.ram_mem_writtenParts i).mp hram with ⟨x, rfl⟩ | ⟨x, rfl⟩
    · exact execLdBVx_ramInv x h hs
    · exact execLdMemVx_ramInv x h hs
  · exact hs.congr (exec_keeps_host_inputs h).1 (exec_ram h hram)

theorem RamInv.applyEvent (s : State) (e : HostEvent) (hs : RamInv s) : RamInv (s.applyEvent e) := by
  rcases s.applyEvent_cases e with h | ⟨k, h⟩ | h | ⟨r, h, -⟩ <;> rw [h]
  case inr.inr.inl => exact ⟨Memory.nil_wf s.cfg, hs.2⟩
  all_goals exact hs

theorem RamInv.step {s t : State} (hs : RamInv s) (h : step s = .next t) : RamInv t :=
  step_keeps (fun _ h => h) RamInv.applyEvent (fun _ _ h => h) (fun _ h => h) (fun _ _ h => h)
    (fun _ _ _ hi hs => State.runInstr_keeps exec_ramInv (fun _ _ h => h) (fun _ _ h => h) hs hi) hs h

/-! #### The fault record and the frame -/

/-- A code and an address that an instruction step can record (R36): a stack fault with address 0, or an address fault
with an address above 0xFFF. -/
def Recordable (c : FaultCode) (a : Nat) : Prop :=
  ((c = .stackUnderflow ∨ c = .stackOverflow) ∧ a = 0) ∨
    ((c = .fetchAddress ∨ c = .dataAddress) ∧ 0x1000 ≤ a ∧ a ≤ 0xFFFF)

/-- The lowest address above 0xFFF of an access that begins at the 16-bit address `a`. -/
theorem recordable_address {c : FaultCode} (hc : c = .fetchAddress ∨ c = .dataAddress) (a : Word) :
    Recordable c (max a.toNat 0x1000) :=
  .inr ⟨hc, by omega, by omega⟩

/-- An instruction's fault records a code and an address of R36. -/
theorem FaultOf.recordable {i : Instr} {s t : State} (h : FaultOf i s t) :
    ∃ c a, t = s.raiseFault c a ∧ Recordable c a := by
  rcases h with ⟨-, -, rfl⟩ | ⟨nnn, -, -, rfl⟩ | ⟨-, rfl⟩
  · exact ⟨_, _, rfl, .inl ⟨.inl rfl, rfl⟩⟩
  · exact ⟨_, _, rfl, .inl ⟨.inr rfl, rfl⟩⟩
  · exact ⟨_, _, rfl, recordable_address (.inr rfl) s.i⟩

/-- An instruction step from a RUNNING state: it goes on RUNNING in the same frame, or it took a fault of R36. -/
theorem State.runInstr_record {s t : State} (h : s.runInstr = .next t) :
    Part.Same (s.setOut t.out) t .host ∨ ∃ c a, t = s.raiseFault c a ∧ Recordable c a := by
  obtain ⟨t', ht', hc⟩ := s.runInstr_cases
  obtain rfl := Host.Outcome.next.inj (ht'.symm.trans h)
  rcases hc with ⟨w, i, -, -, hi⟩ | ⟨w, r, -, -, rfl⟩ | ⟨-, rfl, -⟩
  · obtain ⟨u, hu, hc⟩ := exec_cases i s
    obtain rfl := Host.Outcome.next.inj (hu.symm.trans hi)
    rcases hc with hhost | hf
    · left
      simp_all [Part.Same]
    · exact .inr hf.recordable
  · left
    simp [Part.Same, State.unknownOpcode]
  · exact .inr ⟨_, _, rfl, recordable_address (.inl rfl) s.pc⟩

theorem RecordInv.raiseFault {c : FaultCode} {a : Nat} (h : Recordable c a) (s : State) :
    RecordInv (s.raiseFault c a) := by
  rcases h with ⟨rfl | rfl, rfl⟩ | ⟨hc, hlo, hhi⟩
  · simp [RecordInv]
  · simp [RecordInv]
  · have ha : (BitVec.ofNat 17 a).toNat = a := by
      rw [BitVec.toNat_ofNat]
      omega
    rcases hc with rfl | rfl <;> simp [RecordInv, ha] <;> omega

/-- While the machine goes on RUNNING, the record is kept empty. -/
theorem RecordInv.of_host {s t : State} (hs : RecordInv s) (hr : s.runState = .running) (h : Part.Same s t .host) :
    RecordInv t := by
  obtain ⟨-, -, -, hrun, hcode, hpc, haddr, -⟩ := h
  obtain ⟨hnone, -, hhi, hzero⟩ := hs
  rw [RecordInv, hrun, hcode, hpc, haddr]
  exact ⟨hnone, fun hf => by simp [hr] at hf, hhi, hzero⟩

theorem RecordInv.runInstr (s t : State) (hr : s.runState = .running) (h : s.runInstr = .next t) (hs : RecordInv s) :
    RecordInv t := by
  rcases State.runInstr_record h with hhost | ⟨c, a, rfl, hca⟩
  · exact RecordInv.of_host (s := s.setOut t.out) hs hr hhost
  · exact .raiseFault hca s

theorem RecordInv.setRunState {s : State} {r : RunState} (hs : RecordInv s)
    (hr : r = .quit ∨ ((s.runState = .running ∨ s.runState = .paused) ∧ (r = .running ∨ r = .paused))) :
    RecordInv (s.setRunState r) := by
  obtain ⟨hnone, -, hhi, hzero⟩ := hs
  rcases hr with rfl | ⟨hs, hr⟩
  · exact ⟨by simp, by simp, hhi, hzero⟩
  · exact ⟨fun _ => hnone hs, by rcases hr with rfl | rfl <;> simp, hhi, hzero⟩

theorem RecordInv.applyEvent (s : State) (e : HostEvent) (hs : RecordInv s) : RecordInv (s.applyEvent e) := by
  rcases s.applyEvent_cases e with h | ⟨k, h⟩ | h | ⟨r, h, hr⟩ <;> rw [h]
  · exact hs
  · exact hs
  · exact recordInv_init s.cfg
  · exact hs.setRunState hr

theorem RecordInv.step {s t : State} (hs : RecordInv s) (h : step s = .next t) : RecordInv t :=
  step_keeps (fun _ h => h) RecordInv.applyEvent (fun _ _ h => h) (fun _ h => h) (fun _ _ h => h)
    RecordInv.runInstr hs h

/-- The frame that opens after a poll, whatever the poll left. -/
theorem frameInv_openFrame (s : State) : FrameInv s.openFrame := by
  by_cases hr : s.runState = .running <;> simp [FrameInv, State.openFrame, hr]

theorem FrameInv.tick {s : State} (hs : FrameInv s) : FrameInv s.tick := by
  unfold State.tick
  split
  · exact hs
  · exact frameInv_openFrame _

/-- An instruction step uses its slot, or its fault abandons the frame (R131, R132). -/
theorem FrameInv.runInstr {s t : State} (h : s.runInstr = .next t) (hs : FrameInv s) :
    FrameInv t := by
  rcases State.runInstr_record h with ⟨hcfg, -, -, hrun, -, -, -, hframe, -⟩ | ⟨c, a, rfl, -⟩
  · rw [FrameInv, hcfg, hrun, hframe]
    exact hs
  · simp [FrameInv]

theorem FrameInv.step {s t : State} (hs : FrameInv s) (h : step s = .next t) : FrameInv t := by
  rcases step_cases h with ⟨left, hr, hf, hi⟩ | ⟨-, -, rfl⟩ | ⟨-, rfl⟩
  · have hleft : left + 1 ≤ s.cfg.ipf := hs.2 _ hf
    have hslot : FrameInv (s.takeSlot left) := by
      simp [FrameInv, hr]
      omega
    exact FrameInv.runInstr hi hslot
  · simp [FrameInv]
  · exact hs.tick

/-- Settles O54: the four invariants are kept each on its own. -/
theorem stepKeepsInvariants : Obligations.StepKeepsInvariants := fun _ _ hstack hram hrecord hframe h =>
  ⟨hstack.step h, hram.step h, hrecord.step h, hframe.step h⟩

/-! #### The key wait -/

/-- A fetch reads only the configuration, PC and RAM. -/
theorem State.fetch_congr {s t : State} (hcfg : t.cfg = s.cfg) (hpc : t.pc = s.pc) (hram : t.ram = s.ram) :
    t.fetch = s.fetch := by
  unfold State.fetch State.ramByte
  rw [hcfg, hpc, hram]

/-- After an FX0A no key is waited for, or the same instruction is at PC again (R112). -/
theorem execLdVxK_idle_or_repeats (x : Reg) {s t : State} (h : execLdVxK x s = .next t) :
    t.kwPhase = .idle ∨ t.fetch = s.fetch := by
  obtain rfl := Host.Outcome.next.inj h
  have hback : s.pc + 2 - 2 = s.pc := BitVec.add_sub_cancel _ _
  cases hp : s.kwPhase with
  | idle =>
    cases s.lowestHeld with
    | none => exact .inl hp
    | some k => exact .inr (State.fetch_congr rfl hback rfl)
  | held =>
    cases s.keyHeld s.kwKey
    · exact .inl rfl
    · exact .inr (State.fetch_congr rfl hback rfl)

/-- In HELD the word that a fetch gives is an FX0A. -/
theorem KeyWaitInv.decodes {s : State} {w : Word} (hs : KeyWaitInv s) (hheld : s.kwPhase = .held)
    (hw : s.fetch = .ok w) : ∃ x, decode w = .ok (.ldVxK x) := by
  obtain ⟨w', x, hw', hd⟩ := hs hheld
  obtain rfl := Except.ok.inj (hw.symm.trans hw')
  exact ⟨x, hd⟩

/-- In HELD the instruction that runs is the FX0A at PC, and every other instruction keeps the phase IDLE. -/
theorem KeyWaitInv.runInstr (s t : State) (_ : s.runState = .running) (h : s.runInstr = .next t) (hs : KeyWaitInv s) :
    KeyWaitInv t := by
  obtain ⟨t', ht', hc⟩ := s.runInstr_cases
  obtain rfl := Host.Outcome.next.inj (ht'.symm.trans h)
  rcases hc with ⟨w, i, hw, hd, hi⟩ | ⟨w, r, hw, hd, rfl⟩ | ⟨hw, rfl, -⟩ <;> intro hheld
  · by_cases hk : ∃ x, i = .ldVxK x
    · obtain ⟨x, rfl⟩ := hk
      rcases execLdVxK_idle_or_repeats x hi with hidle | hf
      · simp [hidle] at hheld
      · exact ⟨w, x, hf.trans hw, hd⟩
    · obtain ⟨hphase, -⟩ := exec_same hi .kw (by simpa using hk)
      obtain ⟨x, hx⟩ := hs.decodes (hphase.symm.trans hheld) hw
      exact absurd ⟨x, Except.ok.inj (hd.symm.trans hx)⟩ hk
  · obtain ⟨x, hx⟩ := hs.decodes hheld hw
    simp [hd] at hx
  · exact hs hheld

theorem KeyWaitInv.applyEvent (s : State) (e : HostEvent) (hs : KeyWaitInv s) : KeyWaitInv (s.applyEvent e) := by
  rcases s.applyEvent_cases e with h | ⟨k, h⟩ | h | ⟨r, h, -⟩ <;> rw [h]
  case inr.inr.inl => exact keyWaitInv_init s.cfg
  all_goals exact hs

/-- Settles O55: no part of a step but an instruction moves PC, writes RAM or begins a wait. -/
theorem stepKeepsKeyWait : Obligations.StepKeepsKeyWait := fun _ _ hs h =>
  step_keeps (fun _ h => h) KeyWaitInv.applyEvent (fun _ _ h => h) (fun _ h => h) (fun _ _ h => h)
    KeyWaitInv.runInstr hs h

end Sys2Proof.Machine
end

section
/-! ### Bytes stored and fetched (R55, R58, R115) -/

namespace Sys2Proof.Machine

/-! #### Stores -/

theorem State.dataIndexes_eq (s : State) (n : Nat) : s.dataIndexes n = ramIndexes s.i.toNat n := rfl

/-- Bytes written from address `a` on are read back, also around the end of RAM. -/
theorem State.ramByte_setRamBytes_ramIndexes {s : State} (hwf : Memory.wf s.cfg s.ram = true) (a : Nat) {bs : List Byte}
    (hlen : bs.length ≤ 0x1000) {j : Nat} (hj : j < bs.length) :
    (s.setRamBytes ((ramIndexes a bs.length).zip bs)).ramByte ((a + j) % 0x1000) = bs[j] := by
  have hfst : ((ramIndexes a bs.length).zip bs).map Prod.fst = ramIndexes a bs.length :=
    List.map_fst_zip (by simp)
  refine State.ramByte_setRamBytes_of_mem hwf (fun p hp => ramIndexes_lt (List.of_mem_zip hp).1)
    (by rw [hfst]; exact ramIndexes_nodup hlen) ?_
  rw [List.mem_iff_getElem]
  exact ⟨j, by simpa using hj, by rw [List.getElem_zip, ramIndexes_getElem]⟩

@[simp] theorem State.regBytes_length (s : State) (x : Reg) : (s.regBytes x).length = x.val + 1 := by
  simp [State.regBytes]

@[simp] theorem State.regBytes_getElem (s : State) {x k : Reg} (hk : k.val < (s.regBytes x).length) :
    (s.regBytes x)[k.val] = s.getV k := by
  simp [State.regBytes, State.getV]

@[simp] theorem State.ramByte_advanceI (s : State) (x : Reg) (a : Nat) : (s.advanceI x).ramByte a = s.ramByte a :=
  s.advanceI_same x .ram (by simp) a

/-- FX55 where no byte faults: the registers up to V[x] go to the cells from I on (R115). -/
theorem exec_ldMemVx_of_canAccess {s : State} {x : Reg} (h : s.CanAccess (x.val + 1)) :
    exec (.ldMemVx x) s =
      .next ((s.advance.setRamBytes ((ramIndexes s.i.toNat (x.val + 1)).zip (s.regBytes x))).advanceI x) :=
  congrArg Host.Outcome.next (State.withData_of_canAccess h _)

/-- What FX55 leaves for the next fetch: the stored registers in RAM, and PC at the next instruction. -/
theorem exec_ldMemVx_stores {s : State} {x : Reg} (hs : RamInv s) (h : s.CanAccess (x.val + 1)) :
    ∃ t, exec (.ldMemVx x) s = .next t ∧ t.pc = s.pc + 2 ∧
      ∀ k, k ≤ x → t.ramByte ((s.i.toNat + k.val) % 0x1000) = s.getV k := by
  obtain ⟨hwf, -⟩ := hs
  refine ⟨_, exec_ldMemVx_of_canAccess h, ?_, fun k hk => ?_⟩
  · rw [State.advanceI_same _ x .pc (by simp), State.setRamBytes_same _ _ .pc (by simp), State.advance_pc]
  · have hlen := s.regBytes_length x
    have hlt : k.val < (s.regBytes x).length := hlen ▸ Nat.lt_succ_of_le hk
    rw [State.ramByte_advanceI, ← hlen,
      State.ramByte_setRamBytes_ramIndexes (s := s.advance) hwf s.i.toNat (by omega) hlt, State.regBytes_getElem]

/-! #### Fetches -/

/-- A fetch that lies in RAM as a whole (R47, R63). -/
theorem State.fetch_of_inside {s : State} (h : s.pc.toNat + 1 ≤ 0xFFF) :
    s.fetch = .ok (s.ramByte s.pc.toNat ++ s.ramByte (s.pc.toNat + 1)) := by
  rcases s.fetch_cases with ⟨hf, -⟩ | ⟨-, hout, -⟩
  · rwa [Nat.mod_eq_of_lt (by omega), Nat.mod_eq_of_lt (by omega)] at hf
  · omega

/-- Settles O9: the cells that the next fetch reads are those of I and I + 1, where FX55 has stored V0 and V1. -/
theorem storedBytesAreFetched : Obligations.StoredBytesAreFetched := by
  intro s hs hi hpc
  have hnext : (s.pc + 2).toNat = s.pc.toNat + 2 := by bv_omega
  have hI : s.i.toNat = s.pc.toNat + 2 := by rw [hi, hnext]
  have haccess : s.CanAccess ((1 : Reg).val + 1) := .inr (.inl (show s.i.toNat + 2 ≤ 0x1000 by omega))
  obtain ⟨t, ht, htpc, hbytes⟩ := exec_ldMemVx_stores hs haccess
  have htn : t.pc.toNat = s.pc.toNat + 2 := by rw [htpc, hnext]
  have hfetched (k : Reg) (hk : k ≤ 1) : t.ramByte (t.pc.toNat + k.val) = s.getV k := by
    have hk' : k.val ≤ 1 := hk
    rw [← hbytes k hk, hI, htn, Nat.mod_eq_of_lt (by omega)]
  refine ⟨t, ht, (State.fetch_of_inside (by omega)).trans ?_⟩
  exact congrArg Except.ok (congrArg₂ (· ++ ·) (hfetched 0 (by decide)) (hfetched 1 (by decide)))

end Sys2Proof.Machine
end

section
/-! ### The decoder and the encoder (R60 to R73)

Each instruction's word decodes to it. The other way, one predicate says what a right answer to a word is
(`Answers`), and the dispatch is shown right group by group. The opcode map is read by the fields that its masks
leave (`opcodeRow_eq`), so that it speaks of the same fields as the encoder and the classes of unassigned words. -/

namespace Sys2Proof

/-! #### From instructions to words -/

theorem Instr.wf_sys {nnn : BitVec 12} : (Instr.sys nnn).wf = true ↔ nnn ≠ 0x0E0#12 ∧ nnn ≠ 0x0EE#12 := by
  simp [Instr.wf]

/-- Settles O2: the dispatch reads the row's constant fields back from the format, then its operands. Only a 0NNN
needs well-formedness. -/
theorem decodeEncodeRoundTrip : Obligations.DecodeEncodeRoundTrip := by
  intro i hi
  cases i
  case sys nnn =>
    -- the two inequalities keep the word out of the first two rows of `decode0`
    obtain ⟨hcls, hret⟩ := Instr.wf_sys.mp hi
    simp [encode, decode, decode0]
  case cls | ret => simp [encode, decode, decode0]
  case seVxVy => simp [encode, decode, decode5]
  case sneVxVy => simp [encode, decode, decode9]
  case ldVxVy | orVxVy | andVxVy | xorVxVy | addVxVy | subVxVy | shrVxVy | subnVxVy | shlVxVy =>
    simp [encode, decode, decode8]
  case skpVx | sknpVx => simp [encode, decode, decodeE]
  case ldVxDt | ldVxK | ldDtVx | ldStVx | addIVx | ldFVx | ldBVx | ldMemVx | ldVxMem =>
    simp [encode, decode, decodeF]
  case jp | call | ldINnn | jpV0Nnn | seVxNn | sneVxNn | ldVxNn | addVxNn | rndVxNn | drwVxVyN =>
    simp [encode, decode]

/-! #### From words to instructions -/

theorem formNnn_eq {w : Word} {op : BitVec 4} {nnn : BitVec 12} (hop : fieldOp w = op) (hnnn : fieldNNN w = nnn) :
    formNnn op nnn = w := by
  rw [← hop, ← hnnn, formNnn_fields]

theorem formXNn_eq {w : Word} {op : BitVec 4} {nn : Byte} (hop : fieldOp w = op) (hnn : fieldNN w = nn) :
    formXNn op (fieldX w) nn = w := by
  rw [← hop, ← hnn, formXNn_fields]

theorem formXYN_eq {w : Word} {op n : BitVec 4} (hop : fieldOp w = op) (hn : fieldN w = n) :
    formXYN op (fieldX w) (fieldY w) n = w := by
  rw [← hop, ← hn, formXYN_fields]

/-- The words of each class of R73, by their fields. -/
def Reject.Holds (w : Word) : Reject → Prop
  | .unassigned5 => fieldOp w = 0x5 ∧ fieldN w ≠ 0x0
  | .unassigned8 => fieldOp w = 0x8 ∧ fieldN w ∉ [0x0, 0x1, 0x2, 0x3, 0x4, 0x5, 0x6, 0x7, 0xE]
  | .unassigned9 => fieldOp w = 0x9 ∧ fieldN w ≠ 0x0
  | .unassignedE => fieldOp w = 0xE ∧ fieldNN w ∉ [0x9E, 0xA1]
  | .unassignedF => fieldOp w = 0xF ∧ fieldNN w ∉ [0x07, 0x0A, 0x15, 0x18, 0x1E, 0x29, 0x33, 0x55, 0x65]
  | .truncated => False

/-- A right answer to `w`: a well-formed instruction whose word it is, or a class to which it belongs. -/
def Answers (w : Word) : Except Reject Instr → Prop
  | .ok i => encode i = w ∧ i.wf = true
  | .error r => r.Holds w

theorem decode0_answers {w : Word} (hop : fieldOp w = 0x0) : Answers w (decode0 w) := by
  unfold decode0
  split
  case h_3 hcls hret => exact ⟨formNnn_eq hop rfl, Instr.wf_sys.mpr ⟨hcls, hret⟩⟩
  all_goals exact ⟨formNnn_eq hop ‹_›, rfl⟩

theorem decode5_answers {w : Word} (hop : fieldOp w = 0x5) : Answers w (decode5 w) := by
  unfold decode5
  split
  case h_1 hn => exact ⟨formXYN_eq hop hn, rfl⟩
  case h_2 hn => exact ⟨hop, hn⟩

theorem decode8_answers {w : Word} (hop : fieldOp w = 0x8) : Answers w (decode8 w) := by
  unfold decode8
  split
  case h_10 => exact ⟨hop, by simp_all⟩
  all_goals exact ⟨formXYN_eq hop ‹_›, rfl⟩

theorem decode9_answers {w : Word} (hop : fieldOp w = 0x9) : Answers w (decode9 w) := by
  unfold decode9
  split
  case h_1 hn => exact ⟨formXYN_eq hop hn, rfl⟩
  case h_2 hn => exact ⟨hop, hn⟩

theorem decodeE_answers {w : Word} (hop : fieldOp w = 0xE) : Answers w (decodeE w) := by
  unfold decodeE
  split
  case h_3 => exact ⟨hop, by simp_all⟩
  all_goals exact ⟨formXNn_eq hop ‹_›, rfl⟩

theorem decodeF_answers {w : Word} (hop : fieldOp w = 0xF) : Answers w (decodeF w) := by
  unfold decodeF
  split
  case h_10 => exact ⟨hop, by simp_all⟩
  all_goals exact ⟨formXNn_eq hop ‹_›, rfl⟩

/-- The dispatch of R64 answers every word rightly. -/
theorem decode_answers (w : Word) : Answers w (decode w) := by
  unfold decode
  split
  case h_1 hop => exact decode0_answers hop
  case h_6 hop => exact decode5_answers hop
  case h_9 hop => exact decode8_answers hop
  case h_10 hop => exact decode9_answers hop
  case h_15 hop => exact decodeE_answers hop
  case h_16 =>
    -- the nibble that the fifteen rows before it leave
    refine decodeF_answers ?_
    generalize fieldOp w = op at *
    revert op
    decide
  case h_2 hop | h_3 hop | h_11 hop | h_12 hop => exact ⟨formNnn_eq hop rfl, rfl⟩
  case h_4 hop | h_5 hop | h_7 hop | h_8 hop | h_13 hop => exact ⟨formXNn_eq hop rfl, rfl⟩
  case h_14 hop => exact ⟨formXYN_eq hop rfl, rfl⟩

theorem Reject.holds_of_decode {w : Word} {r : Reject} (h : decode w = .error r) : r.Holds w := by
  have hw := decode_answers w
  rwa [h] at hw

/-- Settles O3: an answer that is an instruction is a well-formed one whose word was asked. -/
theorem encodeDecodeRoundTrip : Obligations.EncodeDecodeRoundTrip := by
  intro w i h
  have hw := decode_answers w
  rwa [h] at hw

/-! #### The opcode map by fields -/

theorem formNnn_mask (op : BitVec 4) (nnn : BitVec 12) : formNnn op nnn &&& 0xF000 = formNnn op 0 := by
  rw [show (0xF000 : Word) = 0xF#4 ++ 0x000#12 from rfl, formNnn, BitVec.and_append]
  exact congrArg₂ (· ++ ·) BitVec.and_allOnes BitVec.and_zero

theorem formXNn_mask (op : BitVec 4) (x : Reg) (nn : Byte) : formXNn op x nn &&& 0xF0FF = formXNn op 0 nn := by
  rw [show (0xF0FF : Word) = (0xF#4 ++ 0x0#4 : BitVec 8) ++ 0xFF#8 from rfl, formXNn,
    BitVec.and_append (w := 8) (v := 8), BitVec.and_append]
  exact congrArg₂ (· ++ ·) (congrArg₂ (· ++ ·) BitVec.and_allOnes BitVec.and_zero) BitVec.and_allOnes

theorem formXYN_mask (op : BitVec 4) (x y : Reg) (n : BitVec 4) : formXYN op x y n &&& 0xF00F = formXYN op 0 0 n := by
  rw [show (0xF00F : Word) = (0xF#4 ++ 0x0#4 : BitVec 8) ++ (0x0#4 ++ 0xF#4 : BitVec 8) from rfl, formXYN,
    BitVec.and_append (w := 8) (v := 8), BitVec.and_append, BitVec.and_append]
  exact congrArg₂ (· ++ ·) (congrArg₂ (· ++ ·) BitVec.and_allOnes BitVec.and_zero)
    (congrArg₂ (· ++ ·) BitVec.and_zero BitVec.and_allOnes)

/-- What a row of R70 fixes: one of four sets of fields, according to its mask. -/
inductive RowKey where
  /-- mask FFFF -/
  | byWord (op : BitVec 4) (nnn : BitVec 12)
  /-- mask F000 -/
  | byOp (op : BitVec 4)
  /-- mask F00F -/
  | byOpN (op n : BitVec 4)
  /-- mask F0FF -/
  | byOpNN (op : BitVec 4) (nn : Byte)

def RowKey.row : RowKey → OpRow
  | .byWord op nnn => ⟨formNnn op nnn, 0xFFFF⟩
  | .byOp op => ⟨formNnn op 0, 0xF000⟩
  | .byOpN op n => ⟨formXYN op 0 0 n, 0xF00F⟩
  | .byOpNN op nn => ⟨formXNn op 0 nn, 0xF0FF⟩

def RowKey.holds (w : Word) : RowKey → Bool
  | .byWord op nnn => fieldOp w == op && fieldNNN w == nnn
  | .byOp op => fieldOp w == op
  | .byOpN op n => fieldOp w == op && fieldN w == n
  | .byOpNN op nn => fieldOp w == op && fieldNN w == nn

/-- A masked word is its row's pattern iff it has the fields that the mask leaves. -/
theorem RowKey.fits_row (k : RowKey) (w : Word) : k.row.fits w = k.holds w := by
  rw [Bool.eq_iff_iff]
  cases k with
  | byWord op nnn =>
    simp only [row, holds, OpRow.fits, Bool.and_eq_true, beq_iff_eq]
    rw [show w &&& 0xFFFF = w from BitVec.and_allOnes]
    exact ⟨fun h => by simp [h], fun ⟨hop, hnnn⟩ => (formNnn_eq hop hnnn).symm⟩
  | byOp op =>
    simp only [row, holds, OpRow.fits, beq_iff_eq]
    rw [← formNnn_fields w, formNnn_mask]
    exact ⟨fun h => by simpa using congrArg fieldOp h, fun h => by simp_all⟩
  | byOpN op n =>
    simp only [row, holds, OpRow.fits, Bool.and_eq_true, beq_iff_eq]
    rw [← formXYN_fields w, formXYN_mask]
    exact ⟨fun h => ⟨by simpa using congrArg fieldOp h, by simpa using congrArg fieldN h⟩, fun h => by simp_all⟩
  | byOpNN op nn =>
    simp only [row, holds, OpRow.fits, Bool.and_eq_true, beq_iff_eq]
    rw [← formXNn_fields w, formXNn_mask]
    exact ⟨fun h => ⟨by simpa using congrArg fieldOp h, by simpa using congrArg fieldNN h⟩, fun h => by simp_all⟩

/-- The 35 rows of R70 by their fields, in its order. -/
def rowKeys : List RowKey :=
  [.byWord 0x0 0x0E0, .byWord 0x0 0x0EE, .byOp 0x0, .byOp 0x1, .byOp 0x2, .byOp 0x3, .byOp 0x4, .byOpN 0x5 0x0,
    .byOp 0x6, .byOp 0x7, .byOpN 0x8 0x0, .byOpN 0x8 0x1, .byOpN 0x8 0x2, .byOpN 0x8 0x3, .byOpN 0x8 0x4,
    .byOpN 0x8 0x5, .byOpN 0x8 0x6, .byOpN 0x8 0x7, .byOpN 0x8 0xE, .byOpN 0x9 0x0, .byOp 0xA, .byOp 0xB, .byOp 0xC,
    .byOp 0xD, .byOpNN 0xE 0x9E, .byOpNN 0xE 0xA1, .byOpNN 0xF 0x07, .byOpNN 0xF 0x0A, .byOpNN 0xF 0x15,
    .byOpNN 0xF 0x18, .byOpNN 0xF 0x1E, .byOpNN 0xF 0x29, .byOpNN 0xF 0x33, .byOpNN 0xF 0x55, .byOpNN 0xF 0x65]

theorem opcodeMap_eq : opcodeMap = rowKeys.map RowKey.row := by decide

theorem opcodeRow_eq (w : Word) : opcodeRow w = rowKeys.findIdx? (·.holds w) := by
  simp only [opcodeRow, opcodeMap_eq, List.findIdx?_map, Function.comp_def, RowKey.fits_row]

/-- The word of an instruction fits its row, and of the earlier rows none: they differ from it in a constant field, or
are those of 00E0 and 00EE. -/
theorem opcodeRow_encode {i : Instr} (hi : i.wf = true) : opcodeRow (encode i) = some i.rowIndex := by
  rw [opcodeRow_eq]
  cases i
  case sys nnn =>
    obtain ⟨hcls, hret⟩ := Instr.wf_sys.mp hi
    simp [encode, rowKeys, RowKey.holds, List.findIdx?_cons, hcls, hret, Instr.rowIndex]
  all_goals simp [encode, rowKeys, RowKey.holds, List.findIdx?_cons, Instr.rowIndex]

theorem opcodeRow_of_holds {r : Reject} {w : Word} (h : r.Holds w) : opcodeRow w = none := by
  rw [opcodeRow_eq]
  cases r
  case truncated => exact h.elim
  all_goals
    obtain ⟨hop, hfield⟩ := h
    simp_all [rowKeys, RowKey.holds, List.findIdx?_cons]

/-- Settles O4: a word that decodes is its instruction's word, and fits that row first; a rejected word is in a class of
R73, and those fit no row. -/
theorem decodeFollowsOpcodeMap : Obligations.DecodeFollowsOpcodeMap := by
  refine fun w => ⟨fun i h => ?_, fun r h => opcodeRow_of_holds (Reject.holds_of_decode h)⟩
  obtain ⟨rfl, hi⟩ := encodeDecodeRoundTrip w i h
  exact opcodeRow_encode hi

/-! #### The unassigned words -/

/-- The decoder rejects exactly the words of the classes of R73: such a word fits no row, but one that decodes does. -/
theorem exists_decode_error_iff {w : Word} : (∃ r, decode w = .error r) ↔ ∃ r : Reject, r.Holds w := by
  refine ⟨fun ⟨r, h⟩ => ⟨r, Reject.holds_of_decode h⟩, fun ⟨r, hr⟩ => ?_⟩
  cases hd : decode w with
  | error r' => exact ⟨r', rfl⟩
  | ok i =>
    obtain ⟨hrow, -⟩ := decodeFollowsOpcodeMap w
    cases (opcodeRow_of_holds hr).symm.trans (hrow i hd)

theorem fieldOp_eq_iff {w : Word} {op : BitVec 4} : fieldOp w = op ↔ w.toNat / 4096 = op.toNat := by
  rw [← BitVec.toNat_inj, fieldOp_toNat]

theorem fieldN_eq_iff {w : Word} {n : BitVec 4} : fieldN w = n ↔ w.toNat % 16 = n.toNat := by
  rw [← BitVec.toNat_inj, fieldN_toNat]

theorem fieldN_unassigned8_iff {w : Word} :
    fieldN w ∉ [0x0, 0x1, 0x2, 0x3, 0x4, 0x5, 0x6, 0x7, 0xE] ↔
      w.toNat % 16 ∈ [0x8, 0x9, 0xA, 0xB, 0xC, 0xD, 0xF] := by
  simp only [List.mem_cons, List.not_mem_nil, or_false, not_or, fieldN_eq_iff, BitVec.toNat_ofNat,
    BitVec.ofNat_eq_ofNat]
  omega

theorem fieldNN_notMem_iff {w : Word} {l : List Byte} : fieldNN w ∉ l ↔ w.toNat % 256 ∉ l.map BitVec.toNat := by
  simp [← fieldNN_toNat, BitVec.toNat_inj]

/-- Settles O1: the fifteen words, evaluated. -/
theorem sampleWordsDecode : Obligations.SampleWordsDecode := by
  unfold Obligations.SampleWordsDecode
  decide

/-- Settles O5: the classes of R73 by their fields, as numbers. -/
theorem unassignedWordsExactly : Obligations.UnassignedWordsExactly := by
  intro w
  rw [exists_decode_error_iff]
  constructor
  · rintro ⟨r, hr⟩
    match r, hr with
    | .unassigned5, ⟨hop, hn⟩ => exact .inl ⟨.inl (fieldOp_eq_iff.mp hop), fieldN_eq_iff.not.mp hn⟩
    | .unassigned9, ⟨hop, hn⟩ => exact .inl ⟨.inr (fieldOp_eq_iff.mp hop), fieldN_eq_iff.not.mp hn⟩
    | .unassigned8, ⟨hop, hn⟩ => exact .inr (.inl ⟨fieldOp_eq_iff.mp hop, fieldN_unassigned8_iff.mp hn⟩)
    | .unassignedE, ⟨hop, hnn⟩ => exact .inr (.inr (.inl ⟨fieldOp_eq_iff.mp hop, fieldNN_notMem_iff.mp hnn⟩))
    | .unassignedF, ⟨hop, hnn⟩ => exact .inr (.inr (.inr ⟨fieldOp_eq_iff.mp hop, fieldNN_notMem_iff.mp hnn⟩))
  · rintro (⟨hop | hop, hn⟩ | ⟨hop, hn⟩ | ⟨hop, hnn⟩ | ⟨hop, hnn⟩)
    · exact ⟨.unassigned5, fieldOp_eq_iff.mpr hop, fieldN_eq_iff.not.mpr hn⟩
    · exact ⟨.unassigned9, fieldOp_eq_iff.mpr hop, fieldN_eq_iff.not.mpr hn⟩
    · exact ⟨.unassigned8, fieldOp_eq_iff.mpr hop, fieldN_unassigned8_iff.mpr hn⟩
    · exact ⟨.unassignedE, fieldOp_eq_iff.mpr hop, fieldNN_notMem_iff.mpr hnn⟩
    · exact ⟨.unassignedF, fieldOp_eq_iff.mpr hop, fieldNN_notMem_iff.mpr hnn⟩

end Sys2Proof
end

section
/-! ### The instruction step (R63, R73, R74) -/

namespace Sys2Proof.Machine

/-- The word that a fetch reads, where both addresses are in RAM or masked (R47, R63). -/
theorem State.fetch_of_addr {s : State} {hi lo : Nat} (hhi : addr s.cfg.oobPolicy s.pc.toNat = .ok hi)
    (hlo : addr s.cfg.oobPolicy (s.pc.toNat + 1) = .ok lo) :
    s.fetch = .ok (wordOfBytes (s.ramByte hi) (s.ramByte lo)) := by
  simp only [State.fetch, hhi, hlo]

theorem State.fetch_takeSlot (s : State) (left : Nat) : (s.takeSlot left).fetch = s.fetch :=
  State.fetch_congr rfl rfl rfl

theorem State.runInstr_of_decoded {s : State} {w : Word} {i : Instr} (hf : s.fetch = .ok w) (hd : decode w = .ok i) :
    s.runInstr = exec i s := by
  simp only [State.runInstr, hf, hd]

theorem State.runInstr_of_rejected {s : State} {w : Word} {r : Reject} (hf : s.fetch = .ok w)
    (hd : decode w = .error r) : s.runInstr = .next (s.unknownOpcode w) := by
  simp only [State.runInstr, hf, hd]

/-- Settles O6: taking the slot changes neither the fetch nor, so, the decoded instruction. -/
theorem stepRunsDecodedInstruction : Obligations.StepRunsDecodedInstruction := by
  intro s left hi lo i hr hframe hhi hlo hd
  have hf : (s.takeSlot left).fetch = .ok (wordOfBytes (s.ramByte hi) (s.ramByte lo)) :=
    (s.fetch_takeSlot left).trans (State.fetch_of_addr hhi hlo)
  rw [step_slots hr hframe, State.runInstr_of_decoded hf hd]
  rfl

/-- Settles O7: the step is `unknownOpcode` on the state whose slot is taken. -/
theorem unassignedWordIsNoOp : Obligations.UnassignedWordIsNoOp := by
  intro s left w r hr hframe hf hd
  rw [step_slots hr hframe, State.runInstr_of_rejected ((s.fetch_takeSlot left).trans hf) hd]
  rfl

/-- Settles O8: a tick and the end of a frame are next states, and an instruction step answers one by
`State.runInstr_cases`. -/
theorem stepAlwaysAnswers : Obligations.StepAlwaysAnswers := by
  intro s
  by_cases hr : s.runState = .running
  · rcases hframe : s.frame with _ | (_ | left)
    · exact ⟨_, step_tick (.inr hframe)⟩
    · exact ⟨_, step_end hr hframe⟩
    · obtain ⟨t, ht, -⟩ := (s.takeSlot left).runInstr_cases
      exact ⟨t, (step_slots hr hframe).trans ht⟩
  · exact ⟨_, step_tick (.inl hr)⟩

end Sys2Proof.Machine
end

section
/-! ### System and flow (R77 to R82) -/

namespace Sys2Proof.Machine

/-! #### Encodings -/

/-- An instruction whose word is known as a number has that word in the sense of `Codes` (R70). -/
theorem codes_number {i : Instr} (h : Laws.WordNumber.Statement i) :
    Codes i (Laws.WordNumber.number i) :=
  ⟨h, decodeEncodeRoundTrip i⟩

/-- 0NNN is every word of group 0 but those of 00E0 and 00EE (R65). -/
theorem wf_sys_iff_toNat {nnn : BitVec 12} :
    (Instr.sys nnn).wf = true ↔ nnn.toNat ≠ 0x0E0 ∧ nnn.toNat ≠ 0x0EE :=
  Instr.wf_sys.trans (and_congr BitVec.toNat_ne_iff_ne.symm BitVec.toNat_ne_iff_ne.symm)

/-! #### What the updates of PC and the stack leave unchanged -/

theorem State.setPc_same (s : State) (a : Word) : SameExcept [.pc] s (s.setPc a) := by
  intro p hp
  cases p <;> simp_all [Part.Same]

theorem State.push_same (s : State) (a : Word) : SameExcept [.stack, .sp] s (s.push a) := by
  intro p hp
  cases p <;> simp_all [Part.Same]

theorem State.pop_same (s : State) : SameExcept [.sp] s s.pop := by
  intro p hp
  cases p <;> simp_all [Part.Same]

@[simp] theorem State.slot_setPc (s : State) (a : Word) (k : Nat) : (s.setPc a).slot k = s.slot k := rfl

@[simp] theorem State.slot_advance (s : State) (k : Nat) : s.advance.slot k = s.slot k := rfl

/-! #### The target of BNNN -/

/-- A byte plus a 12-bit address does not wrap at 16 bits (R82). -/
theorem setWidth_add_zext16_toNat (b : Byte) (nnn : BitVec 12) :
    (b.setWidth 16 + zext16 nnn).toNat = b.toNat + nnn.toNat := by
  rw [BitVec.toNat_add, BitVec.toNat_setWidth, zext16_toNat]
  omega

/-! #### The two sides of 00EE and 2NNN -/

theorem exec_ret_of_nonempty {s : State} (h : s.sp ≠ 0) :
    exec .ret s = .next (s.pop.setPc (s.slot (s.sp - 1))) :=
  congrArg Host.Outcome.next (if_neg h)

theorem exec_ret_of_empty {s : State} (h : s.sp = 0) : exec .ret s = .next (s.raiseFault .stackUnderflow 0) :=
  congrArg Host.Outcome.next (if_pos h)

theorem exec_call_of_free {s : State} (nnn : BitVec 12) (h : s.sp < s.cfg.depth) :
    exec (.call nnn) s = .next ((s.advance.push (s.pc + 2)).setPc (zext16 nnn)) :=
  congrArg Host.Outcome.next (if_neg (Nat.not_le_of_lt h))

theorem exec_call_of_full {s : State} (nnn : BitVec 12) (h : s.cfg.depth ≤ s.sp) :
    exec (.call nnn) s = .next (s.raiseFault .stackOverflow 0) :=
  congrArg Host.Outcome.next (if_pos h)

/-! #### The statements -/

/-- Settles O15: the push goes to a slot that exists, and the jump after it writes PC alone. -/
theorem callPushesReturnAddress : Obligations.CallPushesReturnAddress := by
  intro nnn s
  refine ⟨codes_number (Laws.WordNumber.call nnn), fun hfree => ?_, fun hfull => exec_call_of_full nnn hfull.ge⟩
  have hsp : s.advance.sp < 16 := hfree.trans_le (Config.depth_le s.cfg)
  refine ⟨_, exec_call_of_free nnn hfree, ?_, fun k hk => ?_, rfl, zext16_toNat nnn, ?_⟩
  · simp [State.slot_push _ _ hsp]
  · simp [State.slot_push _ _ hsp, hk]
  · exact ((s.advance_same.append (State.push_same _ _)).append (State.setPc_same _ _)).mono (by simp)

/-- Settles O12. -/
theorem clsClearsFramebuffer : Obligations.ClsClearsFramebuffer := fun _ =>
  ⟨codes_number Laws.WordNumber.cls, _, rfl, rfl, Framebuffer.pixel_clear,
    (exec_same (i := .cls) rfl).mono (by simp [Instr.writtenParts])⟩

/-- Settles O13: the pop writes SP alone, so the slot it reads keeps its value. -/
theorem retPopsReturnAddress : Obligations.RetPopsReturnAddress := fun s =>
  ⟨codes_number Laws.WordNumber.ret,
    fun hne => ⟨_, exec_ret_of_nonempty hne, rfl, rfl, (s.pop_same.append (State.setPc_same _ _)).mono (by simp)⟩,
    exec_ret_of_empty⟩

/-- Settles O14: both write PC alone (`exec_same`). -/
theorem sysAndJump : Obligations.SysAndJump := fun nnn _ =>
  ⟨⟨codes_number (Laws.WordNumber.sys nnn), wf_sys_iff_toNat, _, rfl, rfl, exec_same (i := .sys nnn) rfl⟩,
    codes_number (Laws.WordNumber.jp nnn), _, rfl, zext16_toNat nnn, exec_same (i := .jp nnn) rfl⟩

/-- Settles O16: the sum does not wrap, and the jump writes PC alone (`exec_same`). -/
theorem jumpWithOffset : Obligations.JumpWithOffset := fun nnn s =>
  ⟨codes_number (Laws.WordNumber.jpV0Nnn nnn), _, rfl, setWidth_add_zext16_toNat (s.getV 0) nnn,
    exec_same (i := .jpV0Nnn nnn) rfl⟩

end Sys2Proof.Machine
end

section
/-! ### Skips (R83 to R88) -/

namespace Sys2Proof.Machine

/-! #### Where a skip leaves PC (R22) -/

/-- A skip whose condition decides `p` moves PC by 4 where `p` holds, and by 2 elsewhere. -/
theorem State.advance_skipIf_pc (s : State) {p : Prop} [Decidable p] {b : Bool} (h : b = true ↔ p) :
    (s.advance.skipIf b).pc = if p then s.pc + 4 else s.pc + 2 := by
  have htwice : s.pc + 2 + 2 = s.pc + 4 := BitVec.add_assoc s.pc 2 2
  cases b with
  | true => simpa [State.skipIf, h.mp rfl] using htwice
  | false => simp [State.skipIf, ← h]

/-- The complementary skip, whose condition decides `¬ p`, moves PC the other way round (R84, R88). -/
theorem State.advance_skipIf_not_pc (s : State) {p : Prop} [Decidable p] {b : Bool} (h : b = true ↔ ¬p) :
    (s.advance.skipIf b).pc = if p then s.pc + 2 else s.pc + 4 :=
  (s.advance_skipIf_pc h).trans (ite_not ..)

/-- The bit of the latch that EX9E and EXA1 read: bits 7:4 of V[X] are ignored (R87). -/
theorem State.keyHeld_keyOf (s : State) (x : Reg) :
    s.keyHeld (s.keyOf x) = s.key.getLsbD ((s.getV x).toNat % 16) :=
  congrArg s.key.getLsbD (s.keyOf_val x)

/-! #### The statements -/

/-- Settles O17: the two conditions are complements, and a skip writes PC alone (`exec_same`). -/
theorem skipsOnImmediate : Obligations.SkipsOnImmediate := fun x nn s =>
  ⟨⟨codes_number (Laws.WordNumber.seVxNn x nn), _, rfl, s.advance_skipIf_pc beq_iff_eq,
      exec_same (i := .seVxNn x nn) rfl⟩,
    codes_number (Laws.WordNumber.sneVxNn x nn), _, rfl, s.advance_skipIf_not_pc bne_iff_ne,
    exec_same (i := .sneVxNn x nn) rfl⟩

/-- Settles O18: as for an immediate, with V[Y] for NN. -/
theorem skipsOnRegisters : Obligations.SkipsOnRegisters := fun x y s =>
  ⟨⟨codes_number (Laws.WordNumber.seVxVy x y), _, rfl, s.advance_skipIf_pc beq_iff_eq,
      exec_same (i := .seVxVy x y) rfl⟩,
    codes_number (Laws.WordNumber.sneVxVy x y), _, rfl, s.advance_skipIf_not_pc bne_iff_ne,
    exec_same (i := .sneVxVy x y) rfl⟩

/-- Settles O19: both test the same bit of the latch (`State.keyHeld_keyOf`), EXA1 its complement. -/
theorem skipsOnKey : Obligations.SkipsOnKey := fun x s => by
  have hbit := s.keyHeld_keyOf x
  exact
    ⟨⟨codes_number (Laws.WordNumber.skpVx x), _, rfl, s.advance_skipIf_pc (by rw [hbit]),
        exec_same (i := .skpVx x) rfl⟩,
      codes_number (Laws.WordNumber.sknpVx x), _, rfl, s.advance_skipIf_not_pc (by simp [hbit]),
      exec_same (i := .sknpVx x) rfl⟩

end Sys2Proof.Machine
end

section
/-! ### Loads, arithmetic and random (R89 to R101) -/

namespace Sys2Proof.Machine

/-! #### Flags and results as numbers -/

/-- The flag of a test is 1 where the test holds and 0 elsewhere (R20). -/
theorem flagByte_decide_toNat (p : Prop) [Decidable p] : (flagByte (decide p)).toNat = if p then 1 else 0 := by
  simp only [flagByte_toNat, decide_eq_true_eq]

/-- The flag of a bit shifted out is that bit as a number (R98, R100). -/
theorem flagByte_getLsbD_toNat (b : Byte) (k : Nat) : (flagByte (b.getLsbD k)).toNat = b.toNat / 2 ^ k % 2 := by
  rw [flagByte_toNat, ← Nat.toNat_testBit, Bool.toNat, BitVec.testBit_toNat]
  cases b.getLsbD k <;> rfl

/-- A difference of two bytes, modulo 256 (R97, R99). -/
theorem byte_sub_toNat (a b : Byte) : (a - b).toNat = (256 + a.toNat - b.toNat) % 256 := by
  rw [BitVec.toNat_sub]
  omega

theorem byte_ushiftRight_one_toNat (b : Byte) : (b >>> 1).toNat = b.toNat / 2 := by
  rw [BitVec.toNat_ushiftRight, Nat.shiftRight_one]

theorem byte_shiftLeft_one_toNat (b : Byte) : (b <<< 1).toNat = b.toNat * 2 % 256 := by
  rw [BitVec.toNat_shiftLeft, Nat.shiftLeft_eq]

theorem flagByte_shiftedOutRight_toNat (b : Byte) : (flagByte (shiftedOutRight b)).toNat = b.toNat % 2 := by
  rw [shiftedOutRight, flagByte_getLsbD_toNat, Nat.pow_zero, Nat.div_one]

theorem flagByte_shiftedOutLeft_toNat (b : Byte) : (flagByte (shiftedOutLeft b)).toNat = b.toNat / 128 := by
  rw [shiftedOutLeft, flagByte_getLsbD_toNat]
  omega

/-! #### The three ways to advance PC and write V[X] -/

theorem State.getV_setV_self (s : State) (x : Reg) (b : Byte) : (s.setV x b).getV x = b := by simp

theorem State.setV_same (s : State) (x : Reg) (b : Byte) : SameExcept [.v] s (s.setV x b) := by
  intro p hp
  cases p <;> simp_all [Part.Same]

/-- A plain value: V[X] alone changes, so VF only where X = F (R89, R90, R92). -/
theorem State.advance_setV_spec (s : State) (x : Reg) (r : Byte) :
    (s.advance.setV x r).pc = s.pc + 2 ∧ (s.advance.setV x r).getV x = r ∧
      SameRegsExcept [x] s (s.advance.setV x r) ∧ SameExcept [.pc, .v] s (s.advance.setV x r) :=
  ⟨rfl, State.getV_setV_self _ x r, .setV s.advance x r, s.advance_same.append (State.setV_same _ x r)⟩

/-- A result with its flag, both as numbers: the flag wins where X = F (R21). -/
theorem State.advance_setResultFlag_spec (s : State) (x : Reg) {r : Byte} {b : Bool} {m f : Nat} (hm : r.toNat = m)
    (hf : (flagByte b).toNat = f) :
    (s.advance.setResultFlag x r b).pc = s.pc + 2 ∧
      (x ≠ 0xF → ((s.advance.setResultFlag x r b).getV x).toNat = m) ∧
      ((s.advance.setResultFlag x r b).getV 0xF).toNat = f ∧
      SameRegsExcept [x, 0xF] s (s.advance.setResultFlag x r b) ∧
      SameExcept [.pc, .v] s (s.advance.setResultFlag x r b) := by
  obtain ⟨hresult, hflag, hregs, hsame⟩ := s.advance.setResultFlag_spec x r b
  exact ⟨rfl, fun hx => (congrArg BitVec.toNat (hresult hx)).trans hm, (congrArg BitVec.toNat hflag).trans hf, hregs,
    s.advance_same.append hsame⟩

/-- A logic result comes with a flag of 0 under CHIP-8, and is a plain value under the other quirks (R20). -/
theorem State.advance_setLogicResult_spec (s : State) (x : Reg) (r : Byte) :
    (s.advance.setLogicResult x r).pc = s.pc + 2 ∧
      (s.cfg.quirk = .chip8 → (s.advance.setLogicResult x r).getV 0xF = 0 ∧
        (x ≠ 0xF → (s.advance.setLogicResult x r).getV x = r) ∧
        SameRegsExcept [x, 0xF] s (s.advance.setLogicResult x r)) ∧
      (s.cfg.quirk ≠ .chip8 → (s.advance.setLogicResult x r).getV x = r ∧
        SameRegsExcept [x] s (s.advance.setLogicResult x r)) ∧
      SameExcept [.pc, .v] s (s.advance.setLogicResult x r) := by
  have hsame := State.setLogicResult_same s.advance x r
  refine ⟨hsame .pc (by decide), fun hq => ?_, fun hq => ?_, s.advance_same.append hsame⟩
  · obtain ⟨hresult, hflag, hregs, -⟩ := s.advance.setResultFlag_spec x r false
    rw [State.setLogicResult, if_pos (show s.advance.cfg.quirk = .chip8 from hq)]
    exact ⟨hflag, hresult, hregs⟩
  · rw [State.setLogicResult, if_neg (show s.advance.cfg.quirk ≠ .chip8 from hq)]
    exact ⟨State.getV_setV_self _ x r, .setV s.advance x r⟩

/-! #### The statements -/

/-- Settles O22: each of the three is one logic result, whose flag depends on the quirk alone. -/
theorem logicAndFlagReset : Obligations.LogicAndFlagReset := by
  intro x y s i n r hi
  simp only [List.mem_cons, List.not_mem_nil, or_false, Prod.mk.injEq] at hi
  obtain ⟨rfl, rfl, rfl⟩ | ⟨rfl, rfl, rfl⟩ | ⟨rfl, rfl, rfl⟩ := hi
  · exact ⟨codes_number (Laws.WordNumber.orVxVy x y), _, rfl, s.advance_setLogicResult_spec x _⟩
  · exact ⟨codes_number (Laws.WordNumber.andVxVy x y), _, rfl, s.advance_setLogicResult_spec x _⟩
  · exact ⟨codes_number (Laws.WordNumber.xorVxVy x y), _, rfl, s.advance_setLogicResult_spec x _⟩

/-- Settles O23: the sum is cut to 8 bits, and the flag tests the exact sum. -/
theorem addWithCarry : Obligations.AddWithCarry := fun x y s =>
  ⟨codes_number (Laws.WordNumber.addVxVy x y), _, rfl,
    s.advance_setResultFlag_spec x (BitVec.toNat_ofNat _ _) (flagByte_decide_toNat _)⟩

/-- Settles O24: 8XY7 is 8XY5 with the operands exchanged, in the difference and in the flag. -/
theorem subtractWithNoBorrow : Obligations.SubtractWithNoBorrow := by
  intro x y s i n a b hi
  simp only [List.mem_cons, List.not_mem_nil, or_false, Prod.mk.injEq] at hi
  obtain ⟨rfl, rfl, rfl, rfl⟩ | ⟨rfl, rfl, rfl, rfl⟩ := hi
  · exact ⟨codes_number (Laws.WordNumber.subVxVy x y), _, rfl,
      s.advance_setResultFlag_spec x (byte_sub_toNat _ _) (flagByte_decide_toNat _)⟩
  · exact ⟨codes_number (Laws.WordNumber.subnVxVy x y), _, rfl,
      s.advance_setResultFlag_spec x (byte_sub_toNat _ _) (flagByte_decide_toNat _)⟩

/-- Settles O25: the source is `shiftSource`, and the bit shifted out is read from it, not from the result. -/
theorem shiftsByOne : Obligations.ShiftsByOne := by
  rintro x y s a rfl
  exact
    ⟨⟨codes_number (Laws.WordNumber.shrVxVy x y), _, rfl,
        s.advance_setResultFlag_spec x (byte_ushiftRight_one_toNat _) (flagByte_shiftedOutRight_toNat _)⟩,
      codes_number (Laws.WordNumber.shlVxVy x y), _, rfl,
      s.advance_setResultFlag_spec x (byte_shiftLeft_one_toNat _) (flagByte_shiftedOutLeft_toNat _)⟩

/-- Settles O20: 6XNN and 7XNN write a plain value to V[X], and ANNN writes I (`exec_same`). -/
theorem immediateLoads : Obligations.ImmediateLoads := by
  intro x nn nnn s
  refine ⟨⟨codes_number (Laws.WordNumber.ldVxNn x nn), _, rfl, s.advance_setV_spec x nn⟩,
    ⟨codes_number (Laws.WordNumber.addVxNn x nn), _, rfl, ?_⟩,
    codes_number (Laws.WordNumber.ldINnn nnn), _, rfl, rfl, zext16_toNat nnn,
    (exec_same (i := .ldINnn nnn) rfl).mono (by simp [Instr.writtenParts])⟩
  obtain ⟨hpc, hsum, hframe⟩ := s.advance_setV_spec x (BitVec.ofNat 8 ((s.getV x).toNat + nn.toNat))
  exact ⟨hpc, (congrArg BitVec.toNat hsum).trans (BitVec.toNat_ofNat _ _), hframe⟩

/-- Settles O21: the copy is a plain value, in every configuration. -/
theorem registerCopy : Obligations.RegisterCopy := fun x y s =>
  ⟨codes_number (Laws.WordNumber.ldVxVy x y), _, rfl, s.advance_setV_spec x (s.getV y)⟩

/-- Settles O26: whatever the draw, the mask clears the bits of its complement. -/
theorem randomUnderMask : Obligations.RandomUnderMask := by
  intro x nn s
  have hdraw : (s.advance.countDraw.setV x (s.drawByte &&& nn)).getV x = Config.randByte s.draws &&& nn :=
    State.getV_setV_self _ x _
  refine ⟨codes_number (Laws.WordNumber.rndVxNn x nn), _, rfl, rfl, hdraw, ?_, rfl,
    exec_sameRegs (i := .rndVxNn x nn) rfl, (exec_same (i := .rndVxNn x nn) rfl).mono (by simp [Instr.writtenParts])⟩
  rw [hdraw, BitVec.and_assoc, BitVec.and_not_self]
  exact BitVec.and_zero

end Sys2Proof.Machine
end

section
/-! ### The sprite blitter (R103 to R107) -/

namespace Sys2Proof.Machine

/-! #### What the blit of the fetched rows does -/

/-- Some pixel is lit under a 1 sprite bit (R105). -/
def State.SpriteHits (s : State) (x y : Reg) (n : BitVec 4) : Prop :=
  ∃ px py, px < 64 ∧ py < 32 ∧ s.spriteBit x y n px py = true ∧ s.fb.pixel px py = true

/-- A 1 sprite bit lies in the drawn region, whose bounds are those of R104. -/
theorem State.spriteBit_inside {s : State} {x y : Reg} {n : BitVec 4} {px py : Nat}
    (h : s.spriteBit x y n px py = true) :
    (s.getV x).toNat % 64 ≤ px ∧ px < min ((s.getV x).toNat % 64 + 8) 64 ∧
      (s.getV y).toNat % 32 ≤ py ∧ py < min ((s.getV y).toNat % 32 + n.toNat) 32 :=
  of_decide_eq_true (Bool.and_eq_true_iff.mp h).1

/-- The blit of all the rows that are drawn, at their RAM indexes where none faults. -/
def State.spriteBlit (s : State) (x y : Reg) (n : BitVec 4) : Blit :=
  s.blit x y (s.dataIndexes (s.spriteRows y n))

section Blit

variable (s : State) (x y : Reg) (n : BitVec 4)

theorem State.spriteBytes_fit : s.originY y + ((s.dataIndexes (s.spriteRows y n)).map s.ramByte).length ≤ 32 := by
  simpa [State.dataIndexes] using s.spriteRows_fit y n

/-- Every pixel of the screen is XORed with its sprite bit (R103, R106). -/
theorem State.spriteBlit_pixel {px py : Nat} (hx : px < 64) (hy : py < 32) :
    (s.spriteBlit x y n).fb.pixel px py = (s.fb.pixel px py ^^ s.spriteBit x y n px py) := by
  rw [State.spriteBlit, State.blit, (blitRows_spec _ _ _ _ (s.spriteBytes_fit y n)).1,
    s.rowsBit_eq_spriteBit x y n hx hy]

/-- The blit finds a collision iff some lit pixel of the screen lies under a 1 bit (R105). -/
theorem State.spriteBlit_hit : (s.spriteBlit x y n).hit = true ↔ s.SpriteHits x y n := by
  have hfit := s.spriteBytes_fit y n
  rw [State.spriteBlit, State.blit, (blitRows_spec _ _ _ _ hfit).2]
  constructor
  · rintro (h | ⟨px, py, hbit, hlit⟩)
    · cases h
    · obtain ⟨hx, hy⟩ := rowsBit_inside hbit hfit
      exact ⟨px, py, hx, hy, s.rowsBit_eq_spriteBit x y n hx hy ▸ hbit, hlit⟩
  · rintro ⟨px, py, hx, hy, hbit, hlit⟩
    exact .inr ⟨px, py, (s.rowsBit_eq_spriteBit x y n hx hy).trans hbit, hlit⟩

end Blit

theorem flagByte_eq_one {b : Bool} : flagByte b = 1 ↔ b = true := by
  cases b <;> decide

theorem flagByte_eq_zero {b : Bool} : flagByte b = 0 ↔ b = false := by
  cases b <;> decide

/-! #### The state after DXYN -/

section Draw

variable {s t : State} {x y : Reg} {n : BitVec 4}

/-- The state after a DXYN whose fetched rows do not fault (R103). -/
def State.drawn (s : State) (x y : Reg) (n : BitVec 4) : State :=
  (s.advance.setFb (s.spriteBlit x y n).fb).setFlag (s.spriteBlit x y n).hit

theorem exec_drw_of_canAccess (hs : s.CanAccess (s.spriteRows y n)) :
    exec (.drwVxVyN x y n) s = .next (s.drawn x y n) :=
  congrArg Host.Outcome.next (State.withData_of_canAccess hs _)

/-- A DXYN leaves the framebuffer as it was or draws all its rows. -/
theorem exec_drw_fb_cases (h : exec (.drwVxVyN x y n) s = .next t) : t.fb = s.fb ∨ t = s.drawn x y n := by
  obtain rfl := Host.Outcome.next.inj h
  rcases s.withData_cases (s.spriteRows y n) _ with ⟨ht, -⟩ | ⟨ht, -⟩
  · exact .inr ht
  · exact .inl (ht ▸ s.raiseFault_fb _ _)

theorem State.drawn_pixel {px py : Nat} (hx : px < 64) (hy : py < 32) :
    (s.drawn x y n).fb.pixel px py = (s.fb.pixel px py ^^ s.spriteBit x y n px py) :=
  s.spriteBlit_pixel x y n hx hy

/-- A pixel changes iff its sprite bit is 1 (R104). -/
theorem State.drawn_pixel_ne_iff {px py : Nat} (hx : px < 64) (hy : py < 32) :
    (s.drawn x y n).fb.pixel px py ≠ s.fb.pixel px py ↔ s.spriteBit x y n px py = true := by
  rw [State.drawn_pixel hx hy]
  cases s.spriteBit x y n px py <;> simp

theorem State.drawn_vf : (s.drawn x y n).getV 0xF = flagByte (s.spriteBlit x y n).hit :=
  State.getV_setV_self _ 0xF _

theorem State.drawn_vf_eq_one : (s.drawn x y n).getV 0xF = 1 ↔ s.SpriteHits x y n := by
  rw [State.drawn_vf, flagByte_eq_one, State.spriteBlit_hit]

theorem State.drawn_vf_eq_zero : (s.drawn x y n).getV 0xF = 0 ↔ ¬ s.SpriteHits x y n := by
  rw [State.drawn_vf, flagByte_eq_zero, ← Bool.not_eq_true, State.spriteBlit_hit]

theorem State.drawn_same : SameExcept [.pc, .v, .fb] s (s.drawn x y n) := by
  intro p hp
  cases p <;> simp_all [State.drawn, Part.Same]

/-- Some lit pixel is under a 1 bit iff some lit pixel is off after the draw (R105). -/
theorem State.spriteHits_iff_turned_off :
    s.SpriteHits x y n ↔
      ∃ px py, px < 64 ∧ py < 32 ∧ s.fb.pixel px py = true ∧ (s.drawn x y n).fb.pixel px py = false := by
  refine exists_congr fun px => exists_congr fun py => and_congr_right fun hx => and_congr_right fun hy => ?_
  rw [State.drawn_pixel hx hy]
  cases s.fb.pixel px py <;> simp

end Draw

/-! #### A second draw of the same sprite (R107) -/

section Redraw

variable {s u : State} {x y : Reg} (hx : u.getV x = s.getV x) (hy : u.getV y = s.getV y) (hi : u.i = s.i)
include hy hi

/-- Which rows are fetched, and whether one faults, depends on V[Y], I and OOB_POLICY alone. -/
theorem State.canAccess_spriteRows_congr {n : BitVec 4} (hcfg : u.cfg = s.cfg)
    (hs : s.CanAccess (s.spriteRows y n)) : u.CanAccess (u.spriteRows y n) := by
  simpa only [State.CanAccess, State.spriteRows, State.originY, hcfg, hy, hi] using hs

include hx

/-- The sprite bits depend on the coordinates, I and RAM alone, so not on the framebuffer. -/
theorem State.spriteBit_congr (hram : ∀ a, u.ramByte a = s.ramByte a) (n : BitVec 4) (px py : Nat) :
    u.spriteBit x y n px py = s.spriteBit x y n px py := by
  have hx0 : u.originX x = s.originX x := by rw [State.originX, hx, State.originX]
  have hy0 : u.originY y = s.originY y := by rw [State.originY, hy, State.originY]
  rw [State.spriteBit, State.inRegion, hx0, hy0, hi, hram, State.spriteBit, State.inRegion]

end Redraw

section Involution

variable {s u : State} {x y : Reg} {n : BitVec 4} (hbit : ∀ px py, u.spriteBit x y n px py = s.spriteBit x y n px py)
  (hfb : u.fb = (s.drawn x y n).fb)
include hbit hfb

/-- A pixel that is XORed twice with the same bit is what it was. -/
theorem State.drawn_drawn_fb : (u.drawn x y n).fb = s.fb := by
  refine Framebuffer.ext_pixel fun px py hx hy => ?_
  rw [State.drawn_pixel hx hy, hbit, hfb, State.drawn_pixel hx hy, Bool.xor_assoc, Bool.xor_self, Bool.xor_false]

/-- The second draw collides on the pixels that the first one lit. -/
theorem State.spriteHits_drawn :
    u.SpriteHits x y n ↔ ∃ px py, px < 64 ∧ py < 32 ∧ s.spriteBit x y n px py = true ∧ s.fb.pixel px py = false ∧
      (s.drawn x y n).fb.pixel px py = true := by
  refine exists_congr fun px => exists_congr fun py => and_congr_right fun hx => and_congr_right fun hy => ?_
  rw [hbit, hfb]
  refine and_congr_right fun h1 => (and_iff_right_of_imp fun hlit => ?_).symm
  simpa [State.drawn_pixel hx hy, h1] using hlit

/-- On a clear framebuffer the first draw lights every pixel under a 1 bit. -/
theorem State.spriteHits_drawn_of_clear (hclear : ∀ px py, px < 64 → py < 32 → s.fb.pixel px py = false) :
    u.SpriteHits x y n ↔ ∃ px py, px < 64 ∧ py < 32 ∧ s.spriteBit x y n px py = true := by
  refine exists_congr fun px => exists_congr fun py => and_congr_right fun hx => and_congr_right fun hy => ?_
  rw [hbit, hfb, State.drawn_pixel hx hy, hclear px py hx hy, Bool.false_xor, and_self_iff]

end Involution

/-! #### The statements -/

/-- Settles O27: where no row faults, the next state is `State.drawn`, and otherwise the data access faults. -/
theorem spriteIsXoredIn : Obligations.SpriteIsXoredIn := fun x y n _ =>
  ⟨codes_number (Laws.WordNumber.drwVxVyN x y n),
    fun hs => ⟨_, exec_drw_of_canAccess hs, rfl, fun _ _ => State.drawn_pixel, State.drawn_vf_eq_one.mpr,
      fun hnone => State.drawn_vf_eq_zero.mpr fun ⟨px, py, hx, hy, hbit, hlit⟩ =>
        Bool.false_ne_true ((hnone px py hx hy hbit).symm.trans hlit),
      exec_sameRegs (exec_drw_of_canAccess hs), State.drawn_same⟩,
    fun hp hn hpast => congrArg Host.Outcome.next (State.withData_of_past hp hn hpast _)⟩

/-- Settles O28: a faulting draw changes no pixel, and a 1 sprite bit lies inside the region. -/
theorem spriteChangesOnlyItsRegion : Obligations.SpriteChangesOnlyItsRegion := by
  intro x y n s t px py h hx hy
  refine ⟨fun hne => ?_, fun hs => ?_⟩
  · rcases exec_drw_fb_cases h with hfb | rfl
    · exact absurd (congrArg (Framebuffer.pixel · px py) hfb) hne
    · exact State.spriteBit_inside ((State.drawn_pixel_ne_iff hx hy).mp hne)
  · obtain rfl := Host.Outcome.next.inj ((exec_drw_of_canAccess hs).symm.trans h)
    exact State.drawn_pixel_ne_iff hx hy

/-- Settles O29: the flag of `State.drawn` is the collision, which is the same as a lit pixel turned off. -/
theorem collisionFlagLaw : Obligations.CollisionFlagLaw := by
  intro x y n s t hs h
  obtain rfl := Host.Outcome.next.inj ((exec_drw_of_canAccess hs).symm.trans h)
  exact ⟨State.drawn_vf_eq_one, State.drawn_vf_eq_one.trans State.spriteHits_iff_turned_off,
    (Classical.em (s.SpriteHits x y n)).imp State.drawn_vf_eq_one.mpr State.drawn_vf_eq_zero.mpr⟩

/-- Settles O30: the second draw has the sprite bits of the first, so it XORs each pixel back. -/
theorem spriteInvolution : Obligations.SpriteInvolution := by
  intro x y n s t u hs h hcfg hx hy hi hram hfb
  obtain rfl := Host.Outcome.next.inj ((exec_drw_of_canAccess hs).symm.trans h)
  have hbit := State.spriteBit_congr hx hy hi hram n
  exact ⟨_, exec_drw_of_canAccess (State.canAccess_spriteRows_congr hy hi hcfg hs), State.drawn_drawn_fb hbit hfb,
    State.drawn_vf_eq_one.trans (State.spriteHits_drawn hbit hfb),
    fun hclear => State.drawn_vf_eq_one.trans (State.spriteHits_drawn_of_clear hbit hfb hclear)⟩

end Sys2Proof.Machine
end

section
/-! ### Transfers of group F (R108 to R116) -/

namespace Sys2Proof.Machine

/-! #### Sums and digits as numbers -/

/-- A byte added to I wraps at 16 bits, not at the end of RAM (R111). -/
theorem add_setWidth_toNat (a : Word) (b : Byte) : (a + b.setWidth 16).toNat = (a.toNat + b.toNat) % 2 ^ 16 := by
  rw [BitVec.toNat_add, BitVec.toNat_setWidth_of_le (by decide)]

/-- The digits as numbers (R114): each is below 256, the hundreds at most 2. -/
theorem bcdDigits_map_toNat (b : Byte) :
    (bcdDigits b).map BitVec.toNat = [b.toNat / 100, b.toNat / 10 % 10, b.toNat % 10] := by
  simp only [bcdDigits, List.map_cons, List.map_nil, BitVec.toNat_ofNat, List.cons.injEq, and_true]
  omega

/-! #### The outcomes of FX0A (R112) -/

theorem SameExcept.refl (s : State) : SameExcept [] s s := by
  intro p _
  cases p <;> simp [Part.Same]

theorem State.setKw_same (s : State) (p : KwPhase) (k : KeyIndex) : SameExcept [.kw] s (s.setKw p k) := by
  intro q hq
  cases q <;> simp_all [Part.Same]

/-- A key index fits a byte. -/
theorem keyIndex_byte_toNat (k : KeyIndex) : (BitVec.ofNat 8 k.val).toNat = k.val := by
  rw [BitVec.toNat_ofNat, Nat.mod_eq_of_lt (by omega)]

/-- A repetition undoes the advance, at the end of the address space too. -/
@[simp] theorem State.repeatInstr_advance (s : State) : s.advance.repeatInstr = s :=
  congrArg s.setPc (BitVec.add_sub_cancel s.pc 2)

theorem exec_ldVxK_of_no_key {s : State} (x : Reg) (hp : s.kwPhase = .idle) (hk : s.lowestHeld = none) :
    exec (.ldVxK x) s = .next s := by
  simp [exec, execLdVxK, hp, hk]

theorem exec_ldVxK_of_press {s : State} (x : Reg) {k : KeyIndex} (hp : s.kwPhase = .idle)
    (hk : s.lowestHeld = some k) : exec (.ldVxK x) s = .next (s.setKw .held k) := by
  have hback : (s.advance.setKw .held k).repeatInstr = s.setKw .held k :=
    congrArg (State.setKw · .held k) s.repeatInstr_advance
  simp [exec, execLdVxK, hp, hk, hback]

theorem exec_ldVxK_of_held {s : State} (x : Reg) (hp : s.kwPhase = .held) (hk : s.keyHeld s.kwKey = true) :
    exec (.ldVxK x) s = .next s := by
  simp [exec, execLdVxK, hp, hk]

theorem exec_ldVxK_of_release {s : State} (x : Reg) (hp : s.kwPhase = .held) (hk : s.keyHeld s.kwKey = false) :
    exec (.ldVxK x) s =
      .next ((s.advance.setV x (BitVec.ofNat 8 s.kwKey.val)).setKw .idle s.kwKey) := by
  simp [exec, execLdVxK, hp, hk]

/-! #### Data accesses from I on (R114 to R116) -/

/-- A byte outside the addresses from `a` on stays, however many of them are written to. -/
theorem State.ramByte_setRamBytes_of_notMem_ramIndexes {s : State} (hwf : Memory.wf s.cfg s.ram = true) {a n k : Nat}
    (bs : List Byte) (hk : k ∉ ramIndexes a n) :
    (s.setRamBytes ((ramIndexes a n).zip bs)).ramByte k = s.ramByte k := by
  refine State.ramByte_setRamBytes_of_notMem hwf (fun p hp => ramIndexes_lt (List.of_mem_zip hp).1) fun hmem => hk ?_
  obtain ⟨p, hp, rfl⟩ := List.mem_map.mp hmem
  exact (List.of_mem_zip hp).1

/-- FX33 where no byte faults: the digits of V[x] go to the cells from I on (R114). -/
theorem exec_ldBVx_of_canAccess {s : State} {x : Reg} (h : s.CanAccess 3) :
    exec (.ldBVx x) s = .next (s.advance.setRamBytes ((ramIndexes s.i.toNat 3).zip (bcdDigits (s.getV x)))) :=
  congrArg Host.Outcome.next (State.withData_of_canAccess h _)

/-- FX65 where no byte faults: the cells from I on go to the registers up to V[x] (R116). -/
theorem exec_ldVxMem_of_canAccess {s : State} {x : Reg} (h : s.CanAccess (x.val + 1)) :
    exec (.ldVxMem x) s =
      .next ((s.advance.setVs 0 ((ramIndexes s.i.toNat (x.val + 1)).map s.ramByte)).advanceI x) :=
  congrArg Host.Outcome.next (State.withData_of_canAccess h _)

/-- The cells of the digits, as numbers. -/
theorem State.ramByte_digits_toNat {s : State} (hwf : Memory.wf s.cfg s.ram = true) (a : Nat) (b : Byte) {j : Nat}
    (hj : j < 3) :
    ((s.setRamBytes ((ramIndexes a 3).zip (bcdDigits b))).ramByte ((a + j) % 0x1000)).toNat =
      [b.toNat / 100, b.toNat / 10 % 10, b.toNat % 10][j] := by
  have hcell := State.ramByte_setRamBytes_ramIndexes hwf a (bs := bcdDigits b) (by simp [bcdDigits]) hj
  simp only [← bcdDigits_map_toNat, List.getElem_map]
  exact congrArg BitVec.toNat hcell

/-- The registers after the bytes from address `a` on are loaded into V0 to V[x] (R116). -/
theorem State.getV_setVs_ramIndexes (s u : State) (a : Nat) (x k : Reg) :
    (s.setVs 0 ((ramIndexes a (x.val + 1)).map u.ramByte)).getV k =
      if k ≤ x then u.ramByte ((a + k.val) % 0x1000) else s.getV k := by
  have hlen : ((ramIndexes a (x.val + 1)).map u.ramByte).length = x.val + 1 := by simp
  rw [State.getV_setVs _ _ _ (by omega)]
  by_cases hk : k ≤ x
  · have hk' : k.val ≤ x.val := hk
    rw [dif_pos (by omega), if_pos hk, List.getElem_map, ramIndexes_getElem, Nat.sub_zero]
  · have hk' : ¬k.val ≤ x.val := hk
    rw [dif_neg (by omega), if_neg hk]

/-! #### I after FX55 and FX65 -/

/-- The advance of I counts from I0 where what ran before it kept QUIRK and I (R115, R116). -/
theorem State.advanceI_toNat_of_same {s u : State} {ps : List Part} (x : Reg) (h : SameExcept ps s u)
    (hhost : .host ∉ ps) (hi : .i ∉ ps) :
    (u.advanceI x).i.toNat = if s.cfg.quirk = .chip8 then (s.i.toNat + x.val + 1) % 2 ^ 16 else s.i.toNat := by
  obtain ⟨hcfg, -⟩ := h .host hhost
  have hI : u.i = s.i := h .i hi
  rw [State.advanceI_toNat, hcfg, hI]

/-! #### The statements -/

/-- Settles O33: each of the four clauses is one outcome of FX0A, and a repetition is the state itself. -/
theorem keyWait : Obligations.KeyWait := by
  intro x s
  refine ⟨codes_number (Laws.WordNumber.ldVxK x), fun hp hnone => ?_, fun hp k hk hlow => ?_, fun hp hk => ?_,
    fun hp hk => ?_⟩
  · exact ⟨s, exec_ldVxK_of_no_key x hp (State.lowestHeld_none hnone), .refl s⟩
  · exact ⟨_, exec_ldVxK_of_press x hp (State.lowestHeld_some hk hlow), rfl, rfl, s.setKw_same .held k⟩
  · exact ⟨s, exec_ldVxK_of_held x hp hk, .refl s⟩
  · obtain ⟨hpc, hv, hregs, hsame⟩ := s.advance_setV_spec x (BitVec.ofNat 8 s.kwKey.val)
    exact ⟨_, exec_ldVxK_of_release x hp hk, hpc, (congrArg BitVec.toNat hv).trans (keyIndex_byte_toNat s.kwKey), rfl,
      hregs, hsame.append (State.setKw_same _ .idle s.kwKey)⟩

/-- Settles O34: the digits go to distinct cells, those of the three addresses from I on. -/
theorem bcdStoresDigits : Obligations.BcdStoresDigits := by
  intro x s
  refine ⟨codes_number (Laws.WordNumber.ldBVx x), fun ⟨hwf, _⟩ hs => ?_, fun hp hpast => ?_⟩
  · have hstore := s.advance.setRamBytes_same ((s.dataIndexes 3).zip (bcdDigits (s.getV x)))
    have hdigit (j : Nat) (hj : j < 3) := State.ramByte_digits_toNat (s := s.advance) hwf s.i.toNat (s.getV x) hj
    exact ⟨State.dataAddrs_of_canAccess hs, _, exec_ldBVx_of_canAccess hs, hstore .pc (by decide),
      hdigit 0 (by decide), hdigit 1 (by decide), hdigit 2 (by decide),
      fun a ha => State.ramByte_setRamBytes_of_notMem_ramIndexes (s := s.advance) hwf _ ha,
      s.advance_same.append hstore⟩
  · exact congrArg Host.Outcome.next (State.withData_of_past hp (by decide) hpast _)

/-- Settles O35: the bytes and PC are `exec_ldMemVx_stores`; the store keeps QUIRK and I, and `advanceI` moves I. -/
theorem storeRegisters : Obligations.StoreRegisters := by
  intro x s
  refine ⟨codes_number (Laws.WordNumber.ldMemVx x), fun hs haccess => ?_, fun hp hpast => ?_⟩
  · have ⟨hwf, _⟩ := hs
    obtain ⟨t, ht, hpc, hbytes⟩ := exec_ldMemVx_stores hs haccess
    obtain rfl := Host.Outcome.next.inj ((exec_ldMemVx_of_canAccess haccess).symm.trans ht)
    have hsame := s.advance_same.append
      (s.advance.setRamBytes_same ((s.dataIndexes (x.val + 1)).zip (s.regBytes x)))
    refine ⟨State.dataAddrs_of_canAccess haccess, _, ht, hpc, hbytes, fun a ha => ?_,
      State.advanceI_toNat_of_same x hsame (by decide) (by decide), ?_⟩
    · rw [State.ramByte_advanceI]
      exact State.ramByte_setRamBytes_of_notMem_ramIndexes (s := s.advance) hwf _ ha
    · exact (hsame.append (State.advanceI_same _ x)).mono (by decide)
  · exact congrArg Host.Outcome.next (State.withData_of_past hp (Nat.succ_pos _) hpast _)

/-- Settles O36: the load keeps QUIRK, I and RAM, and I then moves by `advanceI`, which keeps the registers. -/
theorem loadRegisters : Obligations.LoadRegisters := by
  intro x s
  refine ⟨codes_number (Laws.WordNumber.ldVxMem x), fun haccess => ?_, fun hp hpast => ?_⟩
  · have hsame := s.advance_same.append
      (s.advance.setVs_same ((ramIndexes s.i.toNat (x.val + 1)).map s.ramByte) 0)
    have hall := hsame.append (State.advanceI_same _ x)
    refine ⟨_, exec_ldVxMem_of_canAccess haccess, ?_, fun k => ?_,
      State.advanceI_toNat_of_same x hsame (by decide) (by decide), hall⟩
    · rw [State.advanceI_same _ x .pc (by decide), State.setVs_same _ _ _ .pc (by decide), State.advance_pc]
    · rw [State.advanceI_same _ x .v (by decide)]
      exact State.getV_setVs_ramIndexes s.advance s s.i.toNat x k
  · exact congrArg Host.Outcome.next (State.withData_of_past hp (Nat.succ_pos _) hpast _)

/-- Settles O31: FX07 writes a plain value to V[X]; FX15 and FX18 write one timer (`exec_same`). -/
theorem timerTransfers : Obligations.TimerTransfers := fun x s =>
  ⟨⟨codes_number (Laws.WordNumber.ldVxDt x), _, rfl, s.advance_setV_spec x s.dt⟩,
    ⟨codes_number (Laws.WordNumber.ldDtVx x), _, rfl, rfl, rfl,
      (exec_same (i := .ldDtVx x) rfl).mono (by simp [Instr.writtenParts])⟩,
    codes_number (Laws.WordNumber.ldStVx x), _, rfl, rfl, rfl,
    (exec_same (i := .ldStVx x) rfl).mono (by simp [Instr.writtenParts])⟩

/-- Settles O32: both write I (`exec_same`), so neither has a flag. -/
theorem indexTransfers : Obligations.IndexTransfers := fun x s =>
  ⟨⟨codes_number (Laws.WordNumber.addIVx x), _, rfl, rfl, add_setWidth_toNat s.i (s.getV x),
      (exec_same (i := .addIVx x) rfl).mono (by simp [Instr.writtenParts])⟩,
    codes_number (Laws.WordNumber.ldFVx x), _, rfl, rfl, s.glyphAddr_toNat x,
    (exec_same (i := .ldFVx x) rfl).mono (by simp [Instr.writtenParts])⟩

end Sys2Proof.Machine
end

section
/-! ### Faults of the instruction step (R117 to R122, R131, R132) -/

namespace Sys2Proof.Machine

/-! #### Which fault an instruction takes -/

/-- An instruction that accesses data bytes is a `withData` on just these bytes, with a body that keeps the host's
part (R50, R118). -/
theorem exec_eq_withData {i : Instr} {s : State} (h : 0 < s.dataBytes i) :
    ∃ k, exec i s = .next (s.withData (s.dataBytes i) k) ∧ ∀ ks, Part.Same s (k ks) .host := by
  cases i
  case drwVxVyN => exact ⟨_, rfl, fun _ => by simp [Part.Same]⟩
  case ldBVx => exact ⟨_, rfl, fun _ => SameHost.trans s.advance_host (State.setRamBytes_host _ _)⟩
  case ldMemVx =>
    exact ⟨_, rfl, fun _ =>
      SameHost.trans (SameHost.trans s.advance_host (State.setRamBytes_host _ _)) (State.advanceI_host _ _)⟩
  case ldVxMem =>
    exact ⟨_, rfl, fun _ =>
      SameHost.trans (SameHost.trans s.advance_host (State.setVs_host _ _ _)) (State.advanceI_host _ _)⟩
  all_goals exact absurd h (Nat.lt_irrefl 0)

theorem exec_ret_cases {s t : State} (h : exec .ret s = .next t) :
    Part.Same s t .host ∨ t = s.raiseFault .stackUnderflow 0 := by
  by_cases hsp : s.sp = 0
  · exact .inr (Host.Outcome.next.inj (h.symm.trans (exec_ret_of_empty hsp)))
  · obtain rfl := Host.Outcome.next.inj (h.symm.trans (exec_ret_of_nonempty hsp))
    exact .inl (by simp [Part.Same])

theorem exec_call_cases {nnn : BitVec 12} {s t : State} (h : exec (.call nnn) s = .next t) :
    Part.Same s t .host ∨ t = s.raiseFault .stackOverflow 0 := by
  rcases Nat.lt_or_ge s.sp s.cfg.depth with hfree | hfull
  · obtain rfl := Host.Outcome.next.inj (h.symm.trans (exec_call_of_free nnn hfree))
    exact .inl (by simp [Part.Same])
  · exact .inr (Host.Outcome.next.inj (h.symm.trans (exec_call_of_full nnn hfull)))

/-- The four ends of an instruction (R122): it keeps the host's part, or it takes one of the three faults that
instructions have. Unlike `exec_cases`, it says that DATA_ADDRESS needs a data byte and OOB_POLICY = FAULT. -/
theorem exec_faults {i : Instr} {s t : State} (h : exec i s = .next t) :
    Part.Same s t .host ∨
      (i = .ret ∧ t = s.raiseFault .stackUnderflow 0) ∨
      ((∃ nnn, i = .call nnn) ∧ t = s.raiseFault .stackOverflow 0) ∨
      (0 < s.dataBytes i ∧ s.cfg.oobPolicy = .fault ∧ t = s.raiseFault .dataAddress (max s.i.toNat 0x1000)) := by
  rcases Nat.eq_zero_or_pos (s.dataBytes i) with hnone | hdata
  · by_cases hret : i = .ret
    · subst hret
      exact (exec_ret_cases h).imp_right fun ht => .inl ⟨rfl, ht⟩
    · by_cases hcall : ∃ nnn, i = .call nnn
      · obtain ⟨nnn, rfl⟩ := hcall
        exact (exec_call_cases h).imp_right fun ht => .inr (.inl ⟨⟨nnn, rfl⟩, ht⟩)
      · exact .inl (exec_host_of_no_data h (not_exists.mp hcall) hret hnone)
  · obtain ⟨k, hk, hhost⟩ := exec_eq_withData hdata
    obtain rfl := Host.Outcome.next.inj (hk.symm.trans h)
    rcases s.withData_cases (s.dataBytes i) k with ⟨hbody, -⟩ | ⟨hfault, -, -, hp⟩
    · exact .inl (hbody ▸ hhost _)
    · exact .inr (.inr (.inr ⟨hdata, hp, hfault⟩))

/-- Settles O40: the ends of `exec_faults`, read at the run state and the record. -/
theorem faultsOfEachInstruction : Obligations.FaultsOfEachInstruction := by
  intro i s t hr h
  rcases exec_faults h with ⟨-, -, -, hrun, hcode, hpc, haddr, -⟩ | ⟨hi, rfl⟩ | ⟨hi, rfl⟩ | ⟨hdata, -, rfl⟩
  · exact .inl ⟨hrun.trans hr, hcode, hpc, haddr⟩
  · exact .inr ⟨rfl, .inl ⟨hi, rfl⟩⟩
  · exact .inr ⟨rfl, .inr (.inl ⟨hi, rfl⟩)⟩
  · refine .inr ⟨rfl, .inr (.inr ⟨hdata, rfl, ?_⟩)⟩
    rw [State.raiseFault_faultAddr, BitVec.toNat_ofNat]
    omega

/-- Settles O38: the stack fault is `raiseFault` with address 0, by the full and the empty side of the stack. -/
theorem stackFaults : Obligations.StackFaults :=
  ⟨fun nnn _ hfull => exec_call_of_full nnn hfull.ge, fun _ hempty => exec_ret_of_empty hempty⟩

/-- Settles O11: an instruction step that does not fault keeps the host's part of the state whose slot is taken, and a
fault writes the record, the run state and the frame position alone. -/
theorem instructionStepsDoNotPoll : Obligations.InstructionStepsDoNotPoll := by
  intro s t left hr hframe h
  rcases State.runInstr_record ((step_slots hr hframe).symm.trans h) with
    ⟨-, hkey, htone, -, -, -, -, hslot, hinbox, -⟩ | ⟨c, a, rfl, -⟩
  · exact ⟨hkey, htone, hinbox, .inl hslot⟩
  · exact ⟨rfl, rfl, rfl, .inr rfl⟩

/-! #### Address faults (R118) -/

/-- A fetch past the end of RAM faults. -/
theorem State.runInstr_of_past {s : State} (hp : s.cfg.oobPolicy = .fault) (h : s.pc.toNat + 1 > 0xFFF) :
    s.runInstr = .next (s.raiseFault .fetchAddress (max s.pc.toNat 0x1000)) := by
  rcases s.fetch_cases with ⟨-, hin⟩ | ⟨hf, -⟩
  · rcases hin with hin | hmask
    · omega
    · simp [hp] at hmask
  · simp only [State.runInstr, hf]

/-- A data access past the end of RAM faults, whichever instruction makes it. -/
theorem exec_of_data_past {i : Instr} {s : State} (hp : s.cfg.oobPolicy = .fault) (hdata : 0 < s.dataBytes i)
    (h : s.i.toNat + s.dataBytes i - 1 > 0xFFF) :
    exec i s = .next (s.raiseFault .dataAddress (max s.i.toNat 0x1000)) := by
  obtain ⟨k, hk, -⟩ := exec_eq_withData hdata
  rw [hk, State.withData_of_past hp hdata h]

/-- The only faults under MASK are those of the stack. -/
theorem State.runInstr_of_mask {s t : State} (hp : s.cfg.oobPolicy = .mask) (h : s.runInstr = .next t) :
    t.faultCode = s.faultCode ∨ t.faultCode = .stackUnderflow ∨ t.faultCode = .stackOverflow := by
  obtain ⟨t', ht', hc⟩ := s.runInstr_cases
  obtain rfl := Host.Outcome.next.inj (ht'.symm.trans h)
  rcases hc with ⟨w, i, -, -, hi⟩ | ⟨w, r, -, -, rfl⟩ | ⟨-, -, -, hfault⟩
  · rcases exec_faults hi with ⟨-, -, -, -, hcode, -⟩ | ⟨-, rfl⟩ | ⟨-, rfl⟩ | ⟨-, hfault, -⟩
    · exact .inl hcode
    · exact .inr (.inl rfl)
    · exact .inr (.inr rfl)
    · simp [hp] at hfault
  · exact .inl rfl
  · simp [hp] at hfault

/-- An instruction step keeps the configuration. -/
theorem State.runInstr_cfg {s t : State} (h : s.runInstr = .next t) : t.cfg = s.cfg :=
  State.runInstr_keeps (P := fun u => u.cfg = s.cfg) (fun _ _ _ hi hu => (exec_keeps_host_inputs hi).1.trans hu)
    (fun _ _ hu => hu) (fun _ _ hu => hu) rfl h

/-- Host events record no fault: they keep the code, or a reset clears it. -/
theorem State.applyEvent_faultCode (s : State) (e : HostEvent) :
    (s.applyEvent e).faultCode = s.faultCode ∨ (s.applyEvent e).faultCode = .none := by
  rcases s.applyEvent_cases e with h | ⟨k, h⟩ | h | ⟨r, h, -⟩ <;> rw [h]
  case inr.inr.inl => exact .inr rfl
  all_goals exact .inl rfl

/-- The machine masks addresses, and shows no address fault but what `c` is. -/
def MaskedWithCode (c : FaultCode) (s : State) : Prop :=
  s.cfg.oobPolicy = .mask ∧ (s.faultCode = .fetchAddress ∨ s.faultCode = .dataAddress → s.faultCode = c)

theorem MaskedWithCode.applyEvent {c : FaultCode} (s : State) (e : HostEvent) (hs : MaskedWithCode c s) :
    MaskedWithCode c (s.applyEvent e) := by
  obtain ⟨hp, hcode⟩ := hs
  refine ⟨(s.applyEvent_cfg e).symm ▸ hp, ?_⟩
  rcases s.applyEvent_faultCode e with h | h <;> rw [h]
  · exact hcode
  · simp

theorem MaskedWithCode.runInstr {c : FaultCode} (s t : State) (_ : s.runState = .running) (h : s.runInstr = .next t)
    (hs : MaskedWithCode c s) : MaskedWithCode c t := by
  obtain ⟨hp, hcode⟩ := hs
  refine ⟨(State.runInstr_cfg h).symm ▸ hp, ?_⟩
  rcases State.runInstr_of_mask hp h with h | h | h <;> rw [h]
  · exact hcode
  · simp
  · simp

/-- Settles O37: under FAULT both sides are `raiseFault` with the lowest address past the end of RAM; under MASK no
part of a step records an address fault. -/
theorem addressFaults : Obligations.AddressFaults := by
  refine ⟨fun s left hr hframe hp hpast => ?_, fun i s hp hdata hpast => ?_, fun s t hp h hcode => ?_⟩
  · have haddr : (if s.pc.toNat > 0xFFF then s.pc.toNat else s.pc.toNat + 1) = max s.pc.toNat 0x1000 := by
      split <;> omega
    rw [step_slots hr hframe, State.runInstr_of_past (s := s.takeSlot left) hp hpast, haddr]
    rfl
  · have haddr : (if s.i.toNat > 0xFFF then s.i.toNat else 0x1000) = max s.i.toNat 0x1000 := by
      split <;> omega
    rw [exec_of_data_past hp hdata hpast, haddr]
    rfl
  · have hs : MaskedWithCode s.faultCode s := ⟨hp, fun _ => rfl⟩
    have ht : MaskedWithCode s.faultCode t :=
      step_keeps (fun _ hu => hu) MaskedWithCode.applyEvent (fun _ _ hu => hu) (fun _ hu => hu) (fun _ _ hu => hu)
        MaskedWithCode.runInstr hs h
    exact ht.2 hcode

end Sys2Proof.Machine
end

section
/-! ### Host events and the poll (R127 to R129, R137) -/

namespace Sys2Proof.Machine

/-! #### One event -/

/-- PAUSE_TOGGLE exchanges RUNNING and PAUSED, and is ignored in FAULT and QUIT (R127). -/
def RunState.toggled : RunState → RunState
  | .running => .paused
  | .paused => .running
  | r => r

/-- The host-event rows of the transition table of R127. -/
def RunState.after (r : RunState) (e : HostEvent) : RunState :=
  if r = .quit then .quit
  else
    match e with
    | .keyDown _ => r
    | .keyUp _ => r
    | .pauseToggle => r.toggled
    | .reset => .running
    | .quit => .quit

theorem State.setRunState_of_eq {s : State} {r : RunState} (h : s.runState = r) : s.setRunState r = s := by
  subst h
  rfl

theorem State.applyEvent_of_quit {s : State} (h : s.runState = .quit) (e : HostEvent) : s.applyEvent e = s :=
  if_pos h

theorem State.applyEvent_pauseToggle (s : State) : s.applyEvent .pauseToggle = s.setRunState s.runState.toggled := by
  unfold State.applyEvent
  cases hr : s.runState with
  | running => rfl
  | paused => rfl
  | quit => exact (State.setRunState_of_eq hr).symm
  | fault => exact (State.setRunState_of_eq hr).symm

section Event

variable {s : State} (h : s.runState ≠ .quit)
include h

theorem State.applyEvent_keyDown (k : KeyIndex) : s.applyEvent (.keyDown k) = s.setKey (latchWith s.key k true) :=
  if_neg h

theorem State.applyEvent_keyUp (k : KeyIndex) : s.applyEvent (.keyUp k) = s.setKey (latchWith s.key k false) :=
  if_neg h

theorem State.applyEvent_reset : s.applyEvent .reset = s.hostReset := if_neg h

theorem State.applyEvent_quit : s.applyEvent .quit = s.setRunState .quit := if_neg h

end Event

theorem State.applyEvent_runState (s : State) (e : HostEvent) : (s.applyEvent e).runState = s.runState.after e := by
  by_cases hq : s.runState = .quit
  · rw [State.applyEvent_of_quit hq, hq]
    rfl
  · unfold RunState.after
    rw [if_neg hq]
    cases e with
    | keyDown k => rw [State.applyEvent_keyDown hq, State.setKey_runState]
    | keyUp k => rw [State.applyEvent_keyUp hq, State.setKey_runState]
    | pauseToggle => rw [State.applyEvent_pauseToggle, State.setRunState_runState]
    | reset => rw [State.applyEvent_reset hq, State.hostReset_runState]
    | quit => rw [State.applyEvent_quit hq, State.setRunState_runState]

/-- The latch after KEY_DOWN or KEY_UP, bit by bit. -/
theorem latchWith_getLsbD (key : BitVec 16) (j k : KeyIndex) (down : Bool) :
    (latchWith key k down).getLsbD j = if j = k then down else key.getLsbD j := by
  by_cases hjk : j = k
  · subst hjk
    cases down <;> simp [latchWith]
  · have hval : j.val ≠ k.val := fun h => hjk (Fin.ext h)
    cases down <;> simp [latchWith, hjk] <;> omega

/-! #### A list of events -/

theorem State.poll_singleton (s : State) (e : HostEvent) : s.poll [e] = s.applyEvent e := ite_self _

theorem State.poll_quit_cons {s : State} (h : s.runState ≠ .quit) (es : List HostEvent) :
    s.poll (.quit :: es) = s.setRunState .quit := by
  rw [State.poll, State.applyEvent_quit h, if_pos (State.setRunState_runState _ _)]

/-- While no QUIT came, the later events of a list go on from where the earlier ones ended. -/
theorem State.poll_append {s : State} {es : List HostEvent} (es' : List HostEvent)
    (h : (s.poll es).runState ≠ .quit) : s.poll (es ++ es') = (s.poll es).poll es' := by
  induction es generalizing s with
  | nil => rfl
  | cons e es ih =>
    by_cases hq : (s.applyEvent e).runState = .quit
    · rw [State.poll, if_pos hq] at h
      exact absurd hq h
    · simp only [State.poll, List.cons_append, if_neg hq] at h ⊢
      exact ih h

/-- Settles O45: a poll of one event is that event, and `State.poll_append` gives the order. -/
theorem pollAppliesEvents : Obligations.PollAppliesEvents := by
  intro s h
  refine ⟨fun k down => ⟨latchWith s.key k down, ?_, fun j => latchWith_getLsbD s.key j k down⟩,
    (s.poll_singleton _).trans s.applyEvent_pauseToggle, (s.poll_singleton _).trans (State.applyEvent_reset h),
    State.poll_quit_cons h, fun _ es' hes => State.poll_append es' hes, rfl⟩
  rw [State.poll_singleton]
  cases down with
  | true => exact State.applyEvent_keyDown h k
  | false => exact State.applyEvent_keyUp h k

/-! #### Ticks -/

theorem State.tick_of_quit {s : State} (h : s.runState = .quit) : s.tick = s.takeTick := if_pos h

theorem State.tick_of_not_quit {s : State} (h : s.runState ≠ .quit) :
    s.tick = (s.takeTick.poll (s.inbox.headD [])).openFrame := if_neg h

/-- Settles O48: in QUIT a step is a tick that does not poll. -/
theorem quitIsTerminal : Obligations.QuitIsTerminal := by
  intro s h
  rw [step_tick (.inl (by simp [h])), State.tick_of_quit h]
  rfl

/-- A tick without events keeps the run state. -/
theorem State.tick_runState_of_no_event {s : State} (h : s.inbox.headD [] = []) : s.tick.runState = s.runState := by
  by_cases hq : s.runState = .quit
  · rw [State.tick_of_quit hq, State.takeTick_runState]
  · rw [State.tick_of_not_quit hq, h]
    rfl

/-- An instruction step of a RUNNING frame goes on in this frame, or its fault abandons it (R131, R132). -/
theorem State.runInstr_goes_on_or_faults {s t : State} (hr : s.runState = .running) (h : s.runInstr = .next t) :
    (t.runState = .running ∧ t.frame = s.frame) ∨ (t.runState = .fault ∧ t.frame = .awaitTick) := by
  rcases State.runInstr_record h with ⟨-, -, -, hrun, -, -, -, hframe, -⟩ | ⟨c, a, rfl, -⟩
  · exact .inl ⟨hrun.trans hr, hframe⟩
  · exact .inr ⟨rfl, rfl⟩

theorem powerOn_of_fits {rom : List Byte} (c : Config) (h : rom.length ≤ 3584) :
    powerOn c (some rom) = State.init { c with rom := rom } :=
  if_pos (decide_eq_true h)

/-- An image that is absent or too long (R120). -/
theorem powerOn_runState_of_not_fits {image : Option (List Byte)} (c : Config)
    (h : ∀ rom, image = some rom → 3584 < rom.length) : (powerOn c image).runState = .quit := by
  cases image with
  | none => rfl
  | some rom =>
    have hrom : Config.romFits { c with rom := rom } = false := decide_eq_false (Nat.not_le_of_lt (h rom rfl))
    simp [powerOn, hrom]

/-- Settles O46: the table row by row, power-on by the length of the image, and the steps by kind. -/
theorem runStateTransitions : Obligations.RunStateTransitions := by
  refine ⟨fun s e => ?_, fun c rom hfit => ?_, fun c image => powerOn_runState_of_not_fits c,
    fun s t n hr hframe h => ?_, fun s t hbetween hnone h => ?_⟩
  · rw [State.applyEvent_runState]
    cases s.runState <;> cases e <;> rfl
  · rw [powerOn_of_fits c hfit]
    rfl
  · cases n with
    | zero =>
      obtain rfl := Host.Outcome.next.inj ((step_end hr hframe).symm.trans h)
      exact .inl hr
    | succ left =>
      have hi : (s.takeSlot left).runInstr = .next t := (step_slots hr hframe).symm.trans h
      exact (State.runInstr_goes_on_or_faults (s := s.takeSlot left) hr hi).imp And.left And.left
  · have hempty : s.inbox.headD [] = [] := by
      rcases hnone with hnone | hnone <;> simp [List.headD_eq_head?_getD, hnone]
    obtain rfl := Host.Outcome.next.inj ((step_tick hbetween).symm.trans h)
    exact State.tick_runState_of_no_event hempty

/-! #### PAUSED and FAULT (R128) -/

/-- An event does not read the queue and the output ports, so it may come before or after the tick leaves the queue. -/
theorem State.applyEvent_takeTick (s : State) (e : HostEvent) : s.takeTick.applyEvent e = (s.applyEvent e).takeTick := by
  by_cases hq : s.runState = .quit
  · rw [State.applyEvent_of_quit hq, State.applyEvent_of_quit (s := s.takeTick) hq]
  · have hq' : s.takeTick.runState ≠ .quit := hq
    cases e with
    | keyDown k => rw [State.applyEvent_keyDown hq, State.applyEvent_keyDown hq']; rfl
    | keyUp k => rw [State.applyEvent_keyUp hq, State.applyEvent_keyUp hq']; rfl
    | pauseToggle => rw [State.applyEvent_pauseToggle, State.applyEvent_pauseToggle]; rfl
    | reset => rw [State.applyEvent_reset hq, State.applyEvent_reset hq']; rfl
    | quit => rw [State.applyEvent_quit hq, State.applyEvent_quit hq']; rfl

theorem State.poll_takeTick (s : State) (es : List HostEvent) : s.takeTick.poll es = (s.poll es).takeTick := by
  induction es generalizing s with
  | nil => rfl
  | cons e es ih =>
    simp only [State.poll, State.applyEvent_takeTick, State.takeTick_runState, ih]
    split <;> rfl

/-- An event other than RESET writes the latch and the run state alone. -/
theorem State.applyEvent_eq_of_not_reset {e : HostEvent} (h : e ≠ .reset) (s : State) :
    ∃ k r, s.applyEvent e = (s.setKey k).setRunState r := by
  by_cases hq : s.runState = .quit
  · exact ⟨s.key, s.runState, State.applyEvent_of_quit hq e⟩
  · cases e with
    | keyDown k => exact ⟨latchWith s.key k true, s.runState, State.applyEvent_keyDown hq k⟩
    | keyUp k => exact ⟨latchWith s.key k false, s.runState, State.applyEvent_keyUp hq k⟩
    | pauseToggle => exact ⟨s.key, _, s.applyEvent_pauseToggle⟩
    | reset => exact absurd rfl h
    | quit => exact ⟨s.key, _, State.applyEvent_quit hq⟩

theorem State.poll_eq_of_no_reset {es : List HostEvent} (h : .reset ∉ es) (s : State) :
    ∃ k r, s.poll es = (s.setKey k).setRunState r := by
  induction es generalizing s with
  | nil => exact ⟨s.key, s.runState, rfl⟩
  | cons e es ih =>
    obtain ⟨k, r, hevent⟩ := State.applyEvent_eq_of_not_reset (List.ne_of_not_mem_cons h).symm s
    rw [State.poll]
    split
    · exact ⟨k, r, hevent⟩
    · obtain ⟨k', r', hpoll⟩ := ih (List.not_mem_of_not_mem_cons h) (s.applyEvent e)
      exact ⟨k', r', by rw [hpoll, hevent]; rfl⟩

/-- Settles O47: the tick is the poll, which without a RESET writes the latch and the run state alone, between leaving
the queue and setting the frame position. -/
theorem pausedAndFaultOnlyPoll : Obligations.PausedAndFaultOnlyPoll := by
  intro s hr hreset
  have hrun : s.runState ≠ .running ∧ s.runState ≠ .quit := by rcases hr with hr | hr <;> simp [hr]
  obtain ⟨k, r, hpoll⟩ := State.poll_eq_of_no_reset hreset s
  refine ⟨_, step_tick (.inl hrun.1), ?_⟩
  rw [State.tick_of_not_quit hrun.2, State.poll_takeTick, hpoll]
  refine ⟨fun p hp => ?_, rfl, rfl, rfl, rfl, rfl, rfl, rfl, rfl, rfl⟩
  cases p <;> simp_all [Part.Same, State.openFrame]

end Sys2Proof.Machine
end

section
/-! ### The frame (R130 to R136) -/

namespace Sys2Proof.Machine

/-! #### The end of a frame -/

/-- A timer is sticky at 0 (R133). -/
theorem countDown_toNat (t : Byte) : (countDown t).toNat = t.toNat - 1 := by
  unfold countDown
  split
  next h => subst h; rfl
  next h => bv_omega

/-- Settles O44: the step is `endFrame`, whose tone flag asks whether the lowered ST is 0. -/
theorem endOfFrame : Obligations.EndOfFrame := by
  intro s hr hframe
  refine ⟨_, step_end hr hframe, rfl, countDown_toNat s.dt, countDown_toNat s.st, ?_, rfl⟩
  have htone : countDown s.st ≠ 0 ↔ 0 < (countDown s.st).toNat := by bv_omega
  exact decide_eq_decide.mpr htone

/-! #### The rest of a frame as one function -/

/-- What `frameOf` does after its poll: the slots that are left, then the end of the frame unless one of them faulted. -/
def finishFrame (left : Nat) (s : State) : Result :=
  match runSlots left s with
  | .next t => if t.runState = .fault then .next t else .next t.endFrame
  | r => r

theorem frameOf_of_quit {s : State} (h : s.runState = .quit) : frameOf s = .next s.takeTick := if_pos h

section Poll

variable {s p : State} (hq : s.runState ≠ .quit) (hp : s.takeTick.poll (s.inbox.headD []) = p)
include hq hp

theorem frameOf_of_poll_not_running (hr : p.runState ≠ .running) : frameOf s = .next (p.setFrame .awaitTick) := by
  subst hp
  exact (if_neg hq).trans (if_pos hr)

theorem frameOf_of_poll_running (hr : p.runState = .running) : frameOf s = finishFrame p.cfg.ipf p := by
  subst hp
  exact (if_neg hq).trans (if_neg (not_not.mpr hr))

end Poll

section Slots

variable {s t : State} {left : Nat}

theorem finishFrame_zero (hr : s.runState = .running) : finishFrame 0 s = .next s.endFrame :=
  if_neg (by simp [hr])

theorem finishFrame_of_goes_on (h : (s.takeSlot left).runInstr = .next t) (hr : t.runState = .running) :
    finishFrame (left + 1) s = finishFrame left t := by
  simp [finishFrame, runSlots, h, hr]

theorem finishFrame_of_faults (h : (s.takeSlot left).runInstr = .next t) (hr : t.runState = .fault) :
    finishFrame (left + 1) s = .next t := by
  simp [finishFrame, runSlots, h, hr]

/-- Each slot and the end of the frame set the frame position, so the one before them does not matter. -/
theorem finishFrame_setFrame (left : Nat) (hr : s.runState = .running) (f : FramePos) :
    finishFrame left (s.setFrame f) = finishFrame left s := by
  cases left with
  | zero => rw [finishFrame_zero hr, finishFrame_zero (s := s.setFrame f) hr]; rfl
  | succ left => rfl

end Slots

/-! #### The steps of a frame -/

/-- Inside a RUNNING frame with `left` slots, at most `left + 1` steps end it as `finishFrame` does. -/
theorem run_eq_finishFrame {left : Nat} {s : State} (hr : s.runState = .running) (hf : s.frame = .slots left) :
    ∃ k, k ≤ left + 1 ∧ ∃ t, finishFrame left s = .next t ∧ Sys2Proof.core.run k s = .next t ∧ t.frame = .awaitTick := by
  induction left generalizing s with
  | zero => exact ⟨1, le_rfl, s.endFrame, finishFrame_zero hr, core_run_succ (step_end hr hf), rfl⟩
  | succ left ih =>
    obtain ⟨u, hu, -⟩ := (s.takeSlot left).runInstr_cases
    have hstep : step s = .next u := (step_slots hr hf).trans hu
    rcases State.runInstr_goes_on_or_faults (s := s.takeSlot left) hr hu with ⟨hur, huf⟩ | ⟨hur, huf⟩
    · obtain ⟨k, hk, t, ht, hrun, htf⟩ := ih hur huf
      exact ⟨k + 1, by omega, t, (finishFrame_of_goes_on hu hur).trans ht, (core_run_succ hstep).trans hrun, htf⟩
    · exact ⟨1, by omega, u, finishFrame_of_faults hu hur, core_run_succ hstep, huf⟩

/-- Settles O43: one tick is the poll of the frame, and where it leaves the machine RUNNING, `run_eq_finishFrame` gives
the steps of the rest. -/
theorem stepsMakeOneFrame : Obligations.StepsMakeOneFrame := by
  intro s hframe
  have htick : step s = .next s.tick := step_tick (.inr hframe)
  by_cases hq : s.runState = .quit
  · rw [State.tick_of_quit hq] at htick
    exact ⟨1, le_rfl, by omega, _, frameOf_of_quit hq, core_run_succ htick, hframe⟩
  · obtain ⟨p, hp⟩ : ∃ p, s.takeTick.poll (s.inbox.headD []) = p := ⟨_, rfl⟩
    have hcfg : p.cfg = s.cfg := hp ▸ State.poll_cfg _ _
    rw [State.tick_of_not_quit hq, hp, State.openFrame] at htick
    by_cases hr : p.runState = .running
    · rw [if_pos hr] at htick
      obtain ⟨k, hk, t, ht, hrun, htf⟩ := run_eq_finishFrame (s := p.setFrame (.slots p.cfg.ipf)) hr rfl
      rw [finishFrame_setFrame _ hr, ← frameOf_of_poll_running hq hp hr] at ht
      exact ⟨k + 1, by omega, by rw [← hcfg]; omega, t, ht, (core_run_succ htick).trans hrun, htf⟩
    · rw [if_neg hr] at htick
      exact ⟨1, le_rfl, by omega, _, frameOf_of_poll_not_running hq hp hr, core_run_succ htick, rfl⟩

end Sys2Proof.Machine
end

section
/-! ### Reset, power-on and the stop idiom (R147 to R153, R160) -/

namespace Sys2Proof.Machine

/-! #### What reset leaves in RAM (R148) -/

theorem resetByte_of_font (c : Config) {a : Nat} (h : a < 80) : resetByte c a = c.font[a] := dif_pos h

theorem resetByte_of_gap (c : Config) {a : Nat} (hfont : 80 ≤ a) (hrom : a < 0x200) : resetByte c a = 0 := by
  rw [resetByte, dif_neg (by omega), if_neg (by omega)]

theorem resetByte_of_rom (c : Config) {j : Nat} (h : j < c.rom.length) (hj : 0x200 + j < 0x1000) :
    resetByte c (0x200 + j) = c.rom[j] := by
  rw [resetByte, dif_neg (by omega), if_pos (by omega), Nat.add_sub_cancel_left, List.getD_eq_getElem _ _ h]

theorem resetByte_after_rom (c : Config) {a : Nat} (h : 0x200 + c.rom.length ≤ a) : resetByte c a = 0 := by
  rw [resetByte, dif_neg (by omega)]
  split
  · exact List.getD_eq_default _ _ (by omega)
  · rfl

/-! #### What reset leaves in every other part (R147) -/

/-- The state of the block that the reset of a configuration leaves; the model's own fields are free. -/
def State.AfterReset (c : Config) (t : State) : Prop :=
  ∃ frame inbox out draws,
    t = { State.init c with frame := frame, inbox := inbox, out := out, draws := draws }

theorem State.init_afterReset (c : Config) : (State.init c).AfterReset c := ⟨_, _, _, _, rfl⟩

theorem State.hostReset_afterReset (s : State) : s.hostReset.AfterReset s.cfg := ⟨_, _, _, _, rfl⟩

theorem State.getV_init (c : Config) (x : Reg) : (State.init c).getV x = 0 := Vector.getElem_replicate _

theorem State.pixel_init (c : Config) (x y : Nat) : (State.init c).fb.pixel x y = false := Framebuffer.pixel_clear x y

/-- A RESET in any state but QUIT. -/
theorem State.poll_reset {s : State} (h : s.runState ≠ .quit) : s.poll [.reset] = s.hostReset :=
  (s.poll_singleton _).trans (State.applyEvent_reset h)

/-- Settles O49: both resets leave `State.init` but for the model's own fields, and RAM that lists no cell. -/
theorem resetLeaves : Obligations.ResetLeaves := by
  refine ⟨fun s t ht => ?_, fun s hq => State.applyEvent_of_quit hq .reset⟩
  have hreset : t.AfterReset s.cfg := by
    rcases ht with rfl | ⟨hq, rfl⟩
    · exact State.init_afterReset s.cfg
    · exact State.poll_reset hq ▸ s.hostReset_afterReset
  obtain ⟨frame, inbox, out, draws, rfl⟩ := hreset
  exact ⟨State.getV_init s.cfg, rfl, rfl, rfl, State.slot_init s.cfg, rfl, rfl, State.pixel_init s.cfg, rfl, rfl, rfl,
    rfl, rfl, rfl, rfl, rfl, rfl, fun _ => resetByte_of_font s.cfg, fun _ => resetByte_of_gap s.cfg,
    fun _ => resetByte_of_rom s.cfg, fun _ => resetByte_after_rom s.cfg⟩

/-! #### Two resets (R151) -/

/-- A reset reads only the configuration and the model's own fields, which it keeps. -/
theorem State.hostReset_hostReset (s : State) : s.hostReset.hostReset = s.hostReset := rfl

/-- Settles O51: in QUIT both resets are refused, and elsewhere the second one finds what the first one left. -/
theorem resetIsIdempotent : Obligations.ResetIsIdempotent := by
  intro s
  by_cases hq : s.runState = .quit
  · simp only [State.poll, State.applyEvent_of_quit hq, if_pos hq]
  · have hrun : s.hostReset.runState ≠ .quit := by simp
    calc s.poll [.reset, .reset]
      _ = (s.poll [.reset]).poll [.reset] := State.poll_append [.reset] (State.poll_reset hq ▸ hrun)
      _ = s.hostReset := by rw [State.poll_reset hq, State.poll_reset hrun, State.hostReset_hostReset]
      _ = s.poll [.reset] := (State.poll_reset hq).symm

/-! #### Power-on (R120, R150) -/

/-- The state of the failed load. -/
theorem powerOn_of_not_fits {image : Option (List Byte)} (c : Config)
    (h : ∀ rom, image = some rom → 3584 < rom.length) :
    powerOn c image = { State.init c with runState := .quit, faultCode := .romLoad } := by
  cases image with
  | none => rfl
  | some rom => exact if_neg fun hfits => Nat.not_le_of_lt (h rom rfl) (of_decide_eq_true hfits)

/-- Settles O50: `powerOn_of_fits` and `powerOn_of_not_fits` are its two halves. (The name `powerOn` is the model's.) -/
theorem powerOn_loads_or_quits : Obligations.PowerOn := by
  refine ⟨fun c rom => powerOn_of_fits c, fun c image h => ?_⟩
  rw [powerOn_of_not_fits c h]
  exact ⟨rfl, rfl, rfl, rfl⟩

/-! #### The first tick (R8, R150, R153) -/

/-- A tick without events in RUNNING opens a frame of IPF slots. -/
theorem State.tick_of_running_of_no_event {s : State} (hr : s.runState = .running) (h : s.inbox.headD [] = []) :
    s.tick = s.takeTick.setFrame (.slots s.cfg.ipf) := by
  rw [State.tick_of_not_quit (by simp [hr]), h]
  exact congrArg s.takeTick.setFrame (if_pos hr)

/-- From the reset state of any configuration the first step opens a frame of IPF slots. -/
theorem step_init (c : Config) : step (State.init c) = .next { State.init c with frame := .slots c.ipf } := by
  rw [step_tick (.inr rfl), State.tick_of_running_of_no_event rfl rfl]
  rfl

/-- INSTS_PER_SECOND is 500 by default (R8). -/
theorem Config.default_ipf : Config.default.ipf = 8 := by decide

/-- Settles O52: the step of `step_init`, in the default configuration. -/
theorem firstTickAfterReset : Obligations.FirstTickAfterReset :=
  ⟨Config.default_ipf ▸ step_init Config.default, rfl⟩

/-! #### The stop idiom (R80, R160) -/

/-- A jump to its own address leaves the state before it. -/
theorem exec_jp_of_own_address {s : State} {nnn : BitVec 12} (h : nnn.toNat = s.pc.toNat) :
    exec (.jp nnn) s = .next s := by
  have hpc : zext16 nnn = s.pc := BitVec.eq_of_toNat_eq ((zext16_toNat nnn).trans h)
  calc exec (.jp nnn) s
    _ = .next (s.advance.setPc (zext16 nnn)) := rfl
    _ = .next s := by rw [hpc]; rfl

/-- Settles O10: the instruction that runs is the jump, and it leaves the state whose slot is taken. -/
theorem stopIdiomStays : Obligations.StopIdiomStays := by
  intro s left hr hframe ⟨nnn, hfetch, htarget⟩
  have hf : (s.takeSlot left).fetch = .ok (encode (.jp nnn)) := (s.fetch_takeSlot left).trans hfetch
  rw [step_slots hr hframe, State.runInstr_of_decoded hf (decodeEncodeRoundTrip (.jp nnn) rfl),
    exec_jp_of_own_address (s := s.takeSlot left) htarget]
  rfl

end Sys2Proof.Machine
end
